-- ==== Sys2Proof/Word.lean ====
section
/-! DEFINITION. The data sizes of 20_memory.md R51, R52: the 32-bit machine word, the byte, and the widths
of a memory access. -/

namespace Sys2Proof

/-- The machine word: 32 bits (00_scope.md R5). Bit 0 of the spec is the most significant bit (R7). -/
abbrev Word := BitVec 32

/-- A byte of memory. -/
abbrev Byte := BitVec 8

/-- The widths of a memory access (20_memory.md R52). -/
inductive Width where
  | byte
  | half
  | word
  deriving DecidableEq, Repr

end Sys2Proof
end

