-- ==== Sys2Proof/Config.lean ====
section
/-! DEFINITION. The parameters that B.00.04 leaves to the implementation (00_scope.md R6, 92_eei_decisions.md
section 2), each at the default the spec states, and the trap names of 60_exceptions.md R271. The layouts stand
where they are used: ST_LAYOUT in Machine/Flags.lean, FIELD_LAYOUT in Decode.lean, TLB_ARG_LAYOUT in
Machine/Tlb.lean. -/

namespace Sys2Proof

/-- The named events of the trap table (60_exceptions.md R271). `machineCheck`, `powerFailure`,
`recoveryCounter` and `privilegedRegister` are in the table and are never raised (R283, R284, R287). -/
inductive TrapId where
  | machineCheck
  | powerFailure
  | recoveryCounter
  | externalInterrupt
  | illegalInstruction
  | privilegedOperation
  | privilegedRegister
  | overflow
  | instrTlbMiss
  | nonAccessInstrTlbMiss
  | instrProtection
  | dataTlbMiss
  | nonAccessDataTlbMiss
  | dataAccessRights
  | dataProtection
  | pageReference
  | alignment
  | breakInstr
  /-- The reserved number 19 + k, which TRAP_ID_DIRTY and TRAP_ID_DATAREF may name (decision D26). -/
  | reserved (k : Fin 13)
  deriving DecidableEq, Repr

/-- CACHE_MODEL (20_memory.md R90). -/
inductive CacheModel where
  /-- One memory: fetches and data accesses see the latest write. -/
  | coherent
  /-- The instruction side has a view of its own, and the data cache writes back on flush (R91, R92). -/
  | split
  deriving DecidableEq, Repr

/-- UNMAPPED: what an access with nothing behind it does (20_memory.md R57, decision D31). -/
inductive UnmappedPolicy where
  /-- The model stops: the run is outside the specification. -/
  | refuse
  /-- A read gives zero and a write does nothing. -/
  | readZeroWriteIgnore
  deriving DecidableEq, Repr

/-- RESERVED_NONZERO: what a word with a non-zero reserved field does (30_encoding.md R122). -/
inductive ReservedPolicy where
  /-- The model stops: the run is outside the specification. -/
  | refuse
  /-- The word is decoded as if the field were zero. -/
  | ignore
  deriving DecidableEq, Repr

/-- SUBC_FORMULA: what ST.CB holds after SUB and SUBC, and how SUBC reads it (43_computational.md R193, R194). -/
inductive SubcFormula where
  /-- CB is the borrow, and SUBC subtracts it. -/
  | borrow
  /-- CB is one less the borrow, and SUBC is a + ~b + CB. -/
  | carry
  deriving DecidableEq, Repr

/-- BITF_LEN0: what EXTR and DEP do with a field of length 0 (43_computational.md R207). -/
inductive EmptyFieldPolicy where
  | empty
  | refuse
  deriving DecidableEq, Repr

/-- GATE_LEVEL_FIELD: which level of a gateway page GATE enters (42_branch.md R178). -/
inductive GateLevelField where
  | pl2
  | pl1
  deriving DecidableEq, Repr

/-- An access to the platform's part of the physical address space (60_exceptions.md R301). -/
inductive PlatformAccess where
  | read (w : Width)
  | write (w : Width) (v : Word)
  deriving DecidableEq, Repr

/-- What the platform answers to an access (60_exceptions.md R301). -/
inductive PlatformResponse where
  /-- Nothing is there: UNMAPPED decides. -/
  | nothing
  /-- The access is done; a read gives the rightmost bytes of `v`. -/
  | done (v : Word)
  deriving DecidableEq, Repr

/-- SEG_BITS, the width of a segment id (decision D3). -/
def Config.segBits : Nat := 32

/-- PAGE_BITS, log2 of the page size in bytes (00_scope.md R6, decision D4). -/
abbrev Config.pageBits : Nat := 12

/-- OPC_LDO, the opcode of LDO (30_encoding.md R120, decision D9). -/
def Config.opcLdo : BitVec 6 := 0x03#6

/-- RESERVED_NONZERO (30_encoding.md R122, decision D6). -/
def Config.reservedNonzero : ReservedPolicy := .refuse

/-- SUBC_FORMULA (43_computational.md R194, decision D16). -/
def Config.subcFormula : SubcFormula := .borrow

/-- BITF_LEN0 (43_computational.md R207, decision D18). -/
def Config.bitfLen0 : EmptyFieldPolicy := .empty

/-- GATE_LEVEL_FIELD (42_branch.md R178, decision D19). -/
def Config.gateLevelField : GateLevelField := .pl2

/-- PID_LAYOUT: the leftmost bit of the id in a protection id register (10_state.md R30, decision D27). -/
def Config.pidIdBit : Nat := 16

/-- PID_LAYOUT: the write-disable bit of a protection id register (10_state.md R30, decision D27). -/
def Config.pidWriteBit : Nat := 31

/-- MEM_SIZE, the first address past the populated RAM; at most 0xF0000000 (20_memory.md R57).
DESIGN CHOICE (the spec leaves it to the platform): all of it is populated. Unsafe; log 3. -/
def Config.memSize : Nat := 0xF0000000

/-- RESET_IA_OFS, the reset entry point (10_state.md R45, decision D30). -/
def Config.resetIaOfs : Word := 0xF0000000

/-- UNMAPPED (decision D31). -/
def Config.unmapped : UnmappedPolicy := .refuse

/-- The platform (60_exceptions.md R301): its response to an access at 0xF0000000 or above, where it has placed no
PDC code. The default platform has no devices. A response depends on the address and the access alone: a device
with a state of its own is outside the model (log 4). -/
def Config.platform (_paddr : Word) (_access : PlatformAccess) : PlatformResponse := .nothing

/-- Whether the implementation may drop the load reservation at any time (20_memory.md R86, item 5). R86 allows the
instance that never does, and the model takes it. Unsafe; log 7. -/
def Config.reservationMayDrop : Bool := false

/-- CACHE_MODEL (decision D29). -/
def Config.cacheModel : CacheModel := .coherent

/-- CACHE_LINE_BYTES, used by the split model only (20_memory.md R90). -/
def Config.cacheLineBytes : Nat := 16

/-- TLB_ENTRIES, the capacity of a TLB; none is unbounded (20_memory.md R75). -/
def Config.tlbEntries : Option Nat := none

/-- Option joint: one map serves as both TLBs (20_memory.md R75). -/
def Config.tlbJoint : Bool := false

/-- SEG0_BYPASS: segment zero is untranslated and unchecked (20_memory.md R67, decision D20). -/
def Config.seg0Bypass : Bool := true

/-- TRAP_ID_DIRTY (20_memory.md R73, decision D26). -/
def Config.trapIdDirty : TrapId := .pageReference

/-- TRAP_ID_DATAREF (20_memory.md R73, decision D26). -/
def Config.trapIdDataRef : TrapId := .pageReference

/-- DIAG_FN, the result of DIAG (44_system_control.md R229, decision D34): the spec's default. Unsafe; log 9. -/
def Config.diagFn (_ _ : Word) : Word := 0

/-- The arbitrary choices of the non-default parameter values, numbered by `State.freeCount`: the word a stale
fetch draws and the bytes a purge reverts (split, 20_memory.md R91, R92), the entry a full TLB evicts (R75), the
reservation dropped or not before STWC (R86).
A free value: nothing says what it is. Log 8. -/
opaque Config.freeChoice : Nat → Nat

end Sys2Proof
end

