-- ==== Sys2Proof/Syntax.lean ====
section
/-! DEFINITION. The instructions of VCPU-32: one constructor for each row of spec/opcode_table.json, in the
table's order. The arguments are the row's fields as the encoding holds them (30_encoding.md R101 to R118);
a one-bit option is a Bool. Names of the arguments: r, a, b general registers; o, l the O and L options;
n, c the N and C options; m base modification; sg, z, av the S, Z and A options; dw data width; seg segment
selector; sreg the four-bit segment register field; t, f, p the T, F and P options; byReg the I option of PRB. -/

namespace Sys2Proof

/-- A general register number, instruction fields r, a, b (30_encoding.md R101). -/
abbrev GReg := BitVec 4

/-- A segment register number (30_encoding.md R115). -/
abbrev SReg := BitVec 3

/-- A control register number (30_encoding.md R115). -/
abbrev CReg := BitVec 5

/-- The instructions. -/
inductive Instr where
  /-- BRK, opcode 0x00 (R237). -/
  | brk (info1 : BitVec 4) (info2 : BitVec 16)
  /-- LDIL, opcode 0x01 (R161). -/
  | ldil (r : GReg) (val22 : BitVec 22)
  /-- ADDIL, opcode 0x02 (R162). -/
  | addil (r : GReg) (val22 : BitVec 22)
  /-- LDO, opcode 0x03 (R163, mode 0). -/
  | ldoImm (r : GReg) (val : BitVec 18)
  /-- LDO, opcode 0x03 (R163, mode 2). -/
  | ldoIdx (r : GReg) (dw : BitVec 2) (a b : GReg)
  /-- LDO, opcode 0x03 (R163, mode 3). -/
  | ldoOfs (r : GReg) (dw : BitVec 2) (ofs : BitVec 12) (b : GReg)
  /-- LSID, opcode 0x04 (R214). -/
  | lsid (r b : GReg)
  /-- EXTR, opcode 0x05 (R208). -/
  | extr (r : GReg) (sg av : Bool) (len pos : BitVec 5) (b : GReg)
  /-- DEP, opcode 0x06 (R210, I = 0). -/
  | depReg (r : GReg) (z av : Bool) (len pos : BitVec 5) (b : GReg)
  /-- DEP, opcode 0x06 (R210, I = 1). -/
  | depImm (r : GReg) (z av : Bool) (len pos : BitVec 5) (imm4 : BitVec 4)
  /-- DSR, opcode 0x07 (R212). -/
  | dsr (r : GReg) (av : Bool) (sh : BitVec 5) (a b : GReg)
  /-- SHLA, opcode 0x08 (R213). -/
  | shla (r : GReg) (l o : Bool) (sa : BitVec 2) (a b : GReg)
  /-- CMR.EQ, opcode 0x09 (R204, condition 0 EQ). -/
  | cmrEq (r a b : GReg)
  /-- CMR.LT, opcode 0x09 (R204, condition 1 LT). -/
  | cmrLt (r a b : GReg)
  /-- CMR.GT, opcode 0x09 (R204, condition 2 GT). -/
  | cmrGt (r a b : GReg)
  /-- CMR.EV, opcode 0x09 (R204, condition 3 EV). -/
  | cmrEv (r a b : GReg)
  /-- CMR.NE, opcode 0x09 (R204, condition 4 NE). -/
  | cmrNe (r a b : GReg)
  /-- CMR.LE, opcode 0x09 (R204, condition 5 LE). -/
  | cmrLe (r a b : GReg)
  /-- CMR.GE, opcode 0x09 (R204, condition 6 GE). -/
  | cmrGe (r a b : GReg)
  /-- CMR.OD, opcode 0x09 (R204, condition 7 OD). -/
  | cmrOd (r a b : GReg)
  /-- MR, opcode 0x0a (R220, D = 0, M = 0: GR[r] <- SR[s]). -/
  | mrFromSr (r : GReg) (sr : SReg)
  /-- MR, opcode 0x0a (R220, D = 0, M = 1: GR[r] <- CR[s]). -/
  | mrFromCr (r : GReg) (cr : CReg)
  /-- MR, opcode 0x0a (R220, D = 1, M = 0: SR[s] <- GR[r]). -/
  | mrToSr (r : GReg) (sr : SReg)
  /-- MR, opcode 0x0a (R220, D = 1, M = 1: CR[s] <- GR[r]). -/
  | mrToCr (r : GReg) (cr : CReg)
  /-- MST, opcode 0x0b (R223, mode 0). -/
  | mst (r b : GReg)
  /-- MST.S, opcode 0x0b (R223, mode 1). -/
  | mstSet (r : GReg) (val6 : BitVec 6)
  /-- MST.C, opcode 0x0b (R223, mode 2). -/
  | mstClear (r : GReg) (val6 : BitVec 6)
  /-- ADD, opcode 0x10 (R191, mode 0 immediate). -/
  | addImm (r : GReg) (o l : Bool) (val : BitVec 18)
  /-- ADD, opcode 0x10 (R191, mode 1 register). -/
  | addReg (r : GReg) (o l : Bool) (a b : GReg)
  /-- ADD, opcode 0x10 (R191, mode 2 register indexed). -/
  | addIdx (r : GReg) (o l : Bool) (dw : BitVec 2) (a b : GReg)
  /-- ADD, opcode 0x10 (R191, mode 3 indexed). -/
  | addOfs (r : GReg) (o l : Bool) (dw : BitVec 2) (ofs : BitVec 12) (b : GReg)
  /-- ADDC, opcode 0x11 (R192, mode 0 immediate). -/
  | addcImm (r : GReg) (o l : Bool) (val : BitVec 18)
  /-- ADDC, opcode 0x11 (R192, mode 1 register). -/
  | addcReg (r : GReg) (o l : Bool) (a b : GReg)
  /-- ADDC, opcode 0x11 (R192, mode 2 register indexed). -/
  | addcIdx (r : GReg) (o l : Bool) (dw : BitVec 2) (a b : GReg)
  /-- ADDC, opcode 0x11 (R192, mode 3 indexed). -/
  | addcOfs (r : GReg) (o l : Bool) (dw : BitVec 2) (ofs : BitVec 12) (b : GReg)
  /-- SUB, opcode 0x12 (R193, mode 0 immediate). -/
  | subImm (r : GReg) (o l : Bool) (val : BitVec 18)
  /-- SUB, opcode 0x12 (R193, mode 1 register). -/
  | subReg (r : GReg) (o l : Bool) (a b : GReg)
  /-- SUB, opcode 0x12 (R193, mode 2 register indexed). -/
  | subIdx (r : GReg) (o l : Bool) (dw : BitVec 2) (a b : GReg)
  /-- SUB, opcode 0x12 (R193, mode 3 indexed). -/
  | subOfs (r : GReg) (o l : Bool) (dw : BitVec 2) (ofs : BitVec 12) (b : GReg)
  /-- SUBC, opcode 0x13 (R194, mode 0 immediate). -/
  | subcImm (r : GReg) (o l : Bool) (val : BitVec 18)
  /-- SUBC, opcode 0x13 (R194, mode 1 register). -/
  | subcReg (r : GReg) (o l : Bool) (a b : GReg)
  /-- SUBC, opcode 0x13 (R194, mode 2 register indexed). -/
  | subcIdx (r : GReg) (o l : Bool) (dw : BitVec 2) (a b : GReg)
  /-- SUBC, opcode 0x13 (R194, mode 3 indexed). -/
  | subcOfs (r : GReg) (o l : Bool) (dw : BitVec 2) (ofs : BitVec 12) (b : GReg)
  /-- AND, opcode 0x14 (R196, mode 0 immediate). -/
  | andImm (r : GReg) (n c : Bool) (val : BitVec 18)
  /-- AND, opcode 0x14 (R196, mode 1 register). -/
  | andReg (r : GReg) (n c : Bool) (a b : GReg)
  /-- AND, opcode 0x14 (R196, mode 2 register indexed). -/
  | andIdx (r : GReg) (n c : Bool) (dw : BitVec 2) (a b : GReg)
  /-- AND, opcode 0x14 (R196, mode 3 indexed). -/
  | andOfs (r : GReg) (n c : Bool) (dw : BitVec 2) (ofs : BitVec 12) (b : GReg)
  /-- OR, opcode 0x15 (R197, mode 0 immediate). -/
  | orImm (r : GReg) (n c : Bool) (val : BitVec 18)
  /-- OR, opcode 0x15 (R197, mode 1 register). -/
  | orReg (r : GReg) (n c : Bool) (a b : GReg)
  /-- OR, opcode 0x15 (R197, mode 2 register indexed). -/
  | orIdx (r : GReg) (n c : Bool) (dw : BitVec 2) (a b : GReg)
  /-- OR, opcode 0x15 (R197, mode 3 indexed). -/
  | orOfs (r : GReg) (n c : Bool) (dw : BitVec 2) (ofs : BitVec 12) (b : GReg)
  /-- XOR, opcode 0x16 (R198, mode 0 immediate). -/
  | xorImm (r : GReg) (n c : Bool) (val : BitVec 18)
  /-- XOR, opcode 0x16 (R198, mode 1 register). -/
  | xorReg (r : GReg) (n c : Bool) (a b : GReg)
  /-- XOR, opcode 0x16 (R198, mode 2 register indexed). -/
  | xorIdx (r : GReg) (n c : Bool) (dw : BitVec 2) (a b : GReg)
  /-- XOR, opcode 0x16 (R198, mode 3 indexed). -/
  | xorOfs (r : GReg) (n c : Bool) (dw : BitVec 2) (ofs : BitVec 12) (b : GReg)
  /-- CMP, opcode 0x17 (R200, mode 0 immediate). -/
  | cmpImm (r : GReg) (cond : BitVec 2) (val : BitVec 18)
  /-- CMP, opcode 0x17 (R200, mode 1 register). -/
  | cmpReg (r : GReg) (cond : BitVec 2) (a b : GReg)
  /-- CMP, opcode 0x17 (R200, mode 2 register indexed). -/
  | cmpIdx (r : GReg) (cond dw : BitVec 2) (a b : GReg)
  /-- CMP, opcode 0x17 (R200, mode 3 indexed). -/
  | cmpOfs (r : GReg) (cond dw : BitVec 2) (ofs : BitVec 12) (b : GReg)
  /-- CMPU, opcode 0x18 (R201, mode 0 immediate). -/
  | cmpuImm (r : GReg) (cond : BitVec 2) (val : BitVec 18)
  /-- CMPU, opcode 0x18 (R201, mode 1 register). -/
  | cmpuReg (r : GReg) (cond : BitVec 2) (a b : GReg)
  /-- CMPU, opcode 0x18 (R201, mode 2 register indexed). -/
  | cmpuIdx (r : GReg) (cond dw : BitVec 2) (a b : GReg)
  /-- CMPU, opcode 0x18 (R201, mode 3 indexed). -/
  | cmpuOfs (r : GReg) (cond dw : BitVec 2) (ofs : BitVec 12) (b : GReg)
  /-- LDB, opcode 0x1a (R142, mode 2). -/
  | ldbIdx (r : GReg) (m : Bool) (a b : GReg)
  /-- LDH, opcode 0x1a (R142, mode 2). -/
  | ldhIdx (r : GReg) (m : Bool) (a b : GReg)
  /-- LDW, opcode 0x1a (R142, mode 2). -/
  | ldwIdx (r : GReg) (m : Bool) (a b : GReg)
  /-- LDB, opcode 0x1a (R142, mode 3). -/
  | ldbOfs (r : GReg) (m : Bool) (ofs : BitVec 12) (b : GReg)
  /-- LDH, opcode 0x1a (R142, mode 3). -/
  | ldhOfs (r : GReg) (m : Bool) (ofs : BitVec 12) (b : GReg)
  /-- LDW, opcode 0x1a (R142, mode 3). -/
  | ldwOfs (r : GReg) (m : Bool) (ofs : BitVec 12) (b : GReg)
  /-- STB, opcode 0x1b (R143). -/
  | stb (r : GReg) (m : Bool) (ofs : BitVec 12) (b : GReg)
  /-- STH, opcode 0x1b (R143). -/
  | sth (r : GReg) (m : Bool) (ofs : BitVec 12) (b : GReg)
  /-- STW, opcode 0x1b (R143). -/
  | stw (r : GReg) (m : Bool) (ofs : BitVec 12) (b : GReg)
  /-- LDWR, opcode 0x1c (R149, mode 2). -/
  | ldwrIdx (r a b : GReg)
  /-- LDWR, opcode 0x1c (R149, mode 3). -/
  | ldwrOfs (r : GReg) (ofs : BitVec 12) (b : GReg)
  /-- STWC, opcode 0x1d (R150). -/
  | stwc (r : GReg) (ofs : BitVec 12) (b : GReg)
  /-- B, opcode 0x20 (R171). -/
  | branch (r : GReg) (ofs22 : BitVec 22)
  /-- GATE, opcode 0x21 (R178). -/
  | gate (r : GReg) (ofs22 : BitVec 22)
  /-- BR, opcode 0x22 (R172). -/
  | br (r b : GReg)
  /-- BV, opcode 0x23 (R173). -/
  | bv (a b : GReg)
  /-- BE, opcode 0x24 (R174). -/
  | be (ofs18 : BitVec 18) (sreg : BitVec 4) (b : GReg)
  /-- BLE, opcode 0x25 (R176). -/
  | ble (ofs18 : BitVec 18) (sreg : BitVec 4) (b : GReg)
  /-- BVE, opcode 0x26 (R177). -/
  | bve (a b : GReg)
  /-- CBR.EQ, opcode 0x27 (R179, condition 0 EQ). -/
  | cbrEq (ofs15 : BitVec 15) (a b : GReg)
  /-- CBR.LT, opcode 0x27 (R179, condition 1 LT). -/
  | cbrLt (ofs15 : BitVec 15) (a b : GReg)
  /-- CBR.GT, opcode 0x27 (R179, condition 2 GT). -/
  | cbrGt (ofs15 : BitVec 15) (a b : GReg)
  /-- CBR.LS, opcode 0x27 (R179, condition 3 LS). -/
  | cbrLs (ofs15 : BitVec 15) (a b : GReg)
  /-- CBR.NE, opcode 0x27 (R179, condition 4 NE). -/
  | cbrNe (ofs15 : BitVec 15) (a b : GReg)
  /-- CBR.LE, opcode 0x27 (R179, condition 5 LE). -/
  | cbrLe (ofs15 : BitVec 15) (a b : GReg)
  /-- CBR.GE, opcode 0x27 (R179, condition 6 GE). -/
  | cbrGe (ofs15 : BitVec 15) (a b : GReg)
  /-- CBR.HI, opcode 0x27 (R179, condition 7 HI). -/
  | cbrHi (ofs15 : BitVec 15) (a b : GReg)
  /-- LDEB, opcode 0x30 (R145). -/
  | ldeb (r : GReg) (m : Bool) (seg : BitVec 2) (ofs : BitVec 12) (b : GReg)
  /-- LDEH, opcode 0x30 (R145). -/
  | ldeh (r : GReg) (m : Bool) (seg : BitVec 2) (ofs : BitVec 12) (b : GReg)
  /-- LDEW, opcode 0x30 (R145). -/
  | ldew (r : GReg) (m : Bool) (seg : BitVec 2) (ofs : BitVec 12) (b : GReg)
  /-- LDEXB, opcode 0x30 (R145, register indexed). -/
  | ldexb (r : GReg) (m : Bool) (seg : BitVec 2) (a b : GReg)
  /-- LDEXH, opcode 0x30 (R145, register indexed). -/
  | ldexh (r : GReg) (m : Bool) (seg : BitVec 2) (a b : GReg)
  /-- LDEXW, opcode 0x30 (R145, register indexed). -/
  | ldexw (r : GReg) (m : Bool) (seg : BitVec 2) (a b : GReg)
  /-- STEB, opcode 0x31 (R146). -/
  | steb (r : GReg) (m : Bool) (seg : BitVec 2) (ofs : BitVec 12) (b : GReg)
  /-- STEH, opcode 0x31 (R146). -/
  | steh (r : GReg) (m : Bool) (seg : BitVec 2) (ofs : BitVec 12) (b : GReg)
  /-- STEW, opcode 0x31 (R146). -/
  | stew (r : GReg) (m : Bool) (seg : BitVec 2) (ofs : BitVec 12) (b : GReg)
  /-- LDWA, opcode 0x32 (R147). -/
  | ldwa (r : GReg) (m : Bool) (ofs16 : BitVec 16) (b : GReg)
  /-- LDWAX, opcode 0x32 (R147, register indexed). -/
  | ldwax (r : GReg) (m : Bool) (a b : GReg)
  /-- STWA, opcode 0x33 (R148). -/
  | stwa (r : GReg) (m : Bool) (ofs16 : BitVec 16) (b : GReg)
  /-- LDPA, opcode 0x39 (R224, mode 2). -/
  | ldpaIdx (r : GReg) (dw : BitVec 2) (a b : GReg)
  /-- LDPA, opcode 0x39 (R224, mode 3). -/
  | ldpaOfs (r : GReg) (dw : BitVec 2) (ofs : BitVec 12) (b : GReg)
  /-- PRB, opcode 0x3a (R225). -/
  | prb (r : GReg) (m p byReg : Bool) (seg : BitVec 2) (a b : GReg)
  /-- ITLB.A, opcode 0x3b (R226, M = 0). -/
  | itlbA (r : GReg) (t : Bool) (sreg : BitVec 4) (b : GReg)
  /-- ITLB.P, opcode 0x3b (R226, M = 1). -/
  | itlbP (r : GReg) (t : Bool) (sreg : BitVec 4) (b : GReg)
  /-- PTLB, opcode 0x3c (R227). -/
  | ptlb (t : Bool) (sreg : BitVec 4) (b : GReg)
  /-- PCA, opcode 0x3d (R228). -/
  | pca (t f : Bool) (sreg : BitVec 4) (b : GReg)
  /-- DIAG, opcode 0x3e (R229). -/
  | diag (r a b : GReg)
  /-- RFI, opcode 0x3f (R236). -/
  | rfi
  deriving DecidableEq, Repr

end Sys2Proof
end

