-- ==== Sys2Proof/WellFormed.lean ====
section
/-! DEFINITION. Which terms of `Instr` an encoding exists for. Every field has exactly its width, so one
check is left: the four-bit segment register field of BE, BLE, ITLB, PTLB and PCA names one of eight
registers (30_encoding.md R113, R118, R122). -/

namespace Sys2Proof

/-- A segment register field is at most 7: bit 24 of the word is 0 (30_encoding.md R122). -/
def segRegFieldOk (sreg : BitVec 4) : Bool := decide (sreg.toNat < 8)

/-- The instruction has a word that is not a reserved encoding. -/
def Instr.wf : Instr → Bool
  | .be _ sreg _ => segRegFieldOk sreg
  | .ble _ sreg _ => segRegFieldOk sreg
  | .itlbA _ _ sreg _ => segRegFieldOk sreg
  | .itlbP _ _ sreg _ => segRegFieldOk sreg
  | .ptlb _ sreg _ => segRegFieldOk sreg
  | .pca _ _ sreg _ => segRegFieldOk sreg
  | _ => true

end Sys2Proof
end

