-- ==== Sys2Proof/Decode.lean ====
section
/-! DEFINITION. Reading an instruction word (30_encoding.md R100 to R128) and, after it, writing one. Bit 0 is
the most significant bit of the word (00_scope.md R7). -/

namespace Sys2Proof

/-- The n-bit field of a word whose leftmost bit is the spec's bit i: w[i : i+n-1] (00_scope.md R8). -/
def fld (w : Word) (i n : Nat) : BitVec n := w.extractLsb' (32 - i - n) n

/-- The single bit i of a word, in the spec's numbering. -/
def bit (w : Word) (i : Nat) : Bool := w.getLsbD (31 - i)

/-- A word that is zero but for the field v, whose leftmost bit is the spec's bit i. -/
def put {n : Nat} (i : Nat) (v : BitVec n) : Word := (v.setWidth 32) <<< (32 - i - n)

/-- A word that is zero but, where v holds, for the spec's bit i. -/
def putBit (i : Nat) (v : Bool) : Word := put i (BitVec.ofBool v)

/-- Low-sign extension, lse_N (30_encoding.md R106): the rightmost bit of the field is the sign of the
bits to its left. -/
def lse {n : Nat} (f : BitVec n) : Word :=
  if f.toNat % 2 = 0 then BitVec.ofNat 32 (f.toNat / 2)
  else BitVec.ofInt 32 (((f.toNat / 2 : Nat) : Int) - ((2 ^ (n - 1) : Nat) : Int))

/-- Why a word is not run as an instruction of the table. -/
inductive Reject where
  /-- An unassigned opcode: trap 5 (30_encoding.md R121). -/
  | unassignedOpcode
  /-- An assigned opcode with a mode, width or form that R123 lists: trap 5. -/
  | undefinedForm
  /-- MST with mode 3: trap 6 at user level, else trap 5 (44_system_control.md R223). -/
  | undefinedMstMode
  /-- A field the format names 0, or a segment register field above 7, is not zero (30_encoding.md R122). -/
  | reservedField
  /-- The reserved field of LDEXx is not zero: trap 5 while ST.D = 0, which 40_memory_reference.md R144 tests
  before any other check, else as `reservedField`. DESIGN CHOICE; log 27. -/
  | reservedExtended
  /-- Fewer than four bytes; no fetch gives this. -/
  | truncated
  deriving DecidableEq, Repr

/-- The instruction, if the word's n reserved bits from bit i on are zero, or RESERVED_NONZERO = ignore; else the
rejection `why` (30_encoding.md R122). -/
def ifZeroElse (why : Reject) (w : Word) (i n : Nat) (r : Except Reject Instr) : Except Reject Instr :=
  if fld w i n = 0 ∨ Config.reservedNonzero = .ignore then r else .error why

/-- The instruction, if the word's n reserved bits from bit i on are zero (30_encoding.md R122). -/
def ifZero (w : Word) (i n : Nat) (r : Except Reject Instr) : Except Reject Instr :=
  ifZeroElse .reservedField w i n r

/-- The segment register field of BE, BLE, ITLB, PTLB and PCA: of its four bits the leftmost is reserved
(30_encoding.md R122). DESIGN CHOICE (log 29): where a field above 7 is not refused (RESERVED_NONZERO = ignore), "as if
the field were zero" is taken of bit 24 alone, so that the word names SR[a mod 8], not SR0. -/
def segRegField (w : Word) : BitVec 4 := (fld w 25 3).setWidth 4

/-- The four operand modes of the nine computational operand-format instructions (30_encoding.md R102, R103).
With dw = 3 a memory operand is an instruction of the table whose meaning is trap 5 (R123). -/
def decodeOperand (w : Word) (imm : BitVec 18 → Instr) (reg : GReg → GReg → Instr)
    (idx : BitVec 2 → GReg → GReg → Instr) (disp : BitVec 2 → BitVec 12 → GReg → Instr) : Except Reject Instr :=
  match fld w 12 2 with
  | 0#2 => .ok (imm (fld w 14 18))
  | 1#2 => ifZero w 14 10 (.ok (reg (fld w 24 4) (fld w 28 4)))
  | 2#2 =>
    if fld w 14 2 = 3#2 ∧ fld w 16 8 ≠ 0 then .error .undefinedForm
    else ifZero w 16 8 (.ok (idx (fld w 14 2) (fld w 24 4) (fld w 28 4)))
  | _ => .ok (disp (fld w 14 2) (fld w 16 12) (fld w 28 4))

/-- One of three instructions by the data width field; dw = 3 is an undefined form (30_encoding.md R123). -/
def decodeWidth (w : Word) (b h wd : Except Reject Instr) : Except Reject Instr :=
  match fld w 14 2 with
  | 0#2 => b
  | 1#2 => h
  | 2#2 => wd
  | _ => .error .undefinedForm

/-- LDO (41_immediate.md R163). -/
def decodeLdo (w : Word) : Except Reject Instr :=
  match fld w 12 2 with
  | 0#2 => ifZero w 10 2 (.ok (.ldoImm (fld w 6 4) (fld w 14 18)))
  | 2#2 => ifZero w 10 2 (ifZero w 16 8 (.ok (.ldoIdx (fld w 6 4) (fld w 14 2) (fld w 24 4) (fld w 28 4))))
  | 3#2 => ifZero w 10 2 (.ok (.ldoOfs (fld w 6 4) (fld w 14 2) (fld w 16 12) (fld w 28 4)))
  | _ => .error .undefinedForm

/-- DEP (30_encoding.md R114). -/
def decodeDep (w : Word) : Except Reject Instr :=
  ifZero w 13 5 (.ok
    (if bit w 12 then .depImm (fld w 6 4) (bit w 10) (bit w 11) (fld w 18 5) (fld w 23 5) (fld w 28 4)
     else .depReg (fld w 6 4) (bit w 10) (bit w 11) (fld w 18 5) (fld w 23 5) (fld w 28 4)))

/-- CMR (30_encoding.md R114; conditions 43_computational.md R204). -/
def decodeCmr (w : Word) : Except Reject Instr :=
  let r := fld w 6 4
  let a := fld w 24 4
  let b := fld w 28 4
  ifZero w 13 11 (.ok
    (match fld w 10 3 with
     | 0#3 => .cmrEq r a b
     | 1#3 => .cmrLt r a b
     | 2#3 => .cmrGt r a b
     | 3#3 => .cmrEv r a b
     | 4#3 => .cmrNe r a b
     | 5#3 => .cmrLe r a b
     | 6#3 => .cmrGe r a b
     | _ => .cmrOd r a b))

/-- MR (30_encoding.md R115). -/
def decodeMr (w : Word) : Except Reject Instr :=
  match fld w 10 2 with
  | 0#2 => ifZero w 12 17 (.ok (.mrFromSr (fld w 6 4) (fld w 29 3)))
  | 1#2 => ifZero w 12 15 (.ok (.mrFromCr (fld w 6 4) (fld w 27 5)))
  | 2#2 => ifZero w 12 17 (.ok (.mrToSr (fld w 6 4) (fld w 29 3)))
  | _ => ifZero w 12 15 (.ok (.mrToCr (fld w 6 4) (fld w 27 5)))

/-- MST (30_encoding.md R116). -/
def decodeMst (w : Word) : Except Reject Instr :=
  match fld w 10 2 with
  | 0#2 => ifZero w 12 16 (.ok (.mst (fld w 6 4) (fld w 28 4)))
  | 1#2 => ifZero w 12 14 (.ok (.mstSet (fld w 6 4) (fld w 26 6)))
  | 2#2 => ifZero w 12 14 (.ok (.mstClear (fld w 6 4) (fld w 26 6)))
  | _ => .error .undefinedMstMode

/-- LDB, LDH, LDW (40_memory_reference.md R142). -/
def decodeLd (w : Word) : Except Reject Instr :=
  let r := fld w 6 4
  let m := bit w 11
  let b := fld w 28 4
  match fld w 12 2 with
  | 2#2 =>
    let a := fld w 24 4
    decodeWidth w (ifZero w 10 1 (ifZero w 16 8 (.ok (.ldbIdx r m a b))))
      (ifZero w 10 1 (ifZero w 16 8 (.ok (.ldhIdx r m a b))))
      (ifZero w 10 1 (ifZero w 16 8 (.ok (.ldwIdx r m a b))))
  | 3#2 =>
    let d := fld w 16 12
    decodeWidth w (ifZero w 10 1 (.ok (.ldbOfs r m d b))) (ifZero w 10 1 (.ok (.ldhOfs r m d b)))
      (ifZero w 10 1 (.ok (.ldwOfs r m d b)))
  | _ => .error .undefinedForm

/-- STB, STH, STW: operand mode 3 only (40_memory_reference.md R143). -/
def decodeSt (w : Word) : Except Reject Instr :=
  let r := fld w 6 4
  let m := bit w 11
  let d := fld w 16 12
  let b := fld w 28 4
  match fld w 12 2 with
  | 3#2 =>
    decodeWidth w (ifZero w 10 1 (.ok (.stb r m d b))) (ifZero w 10 1 (.ok (.sth r m d b)))
      (ifZero w 10 1 (.ok (.stw r m d b)))
  | _ => .error .undefinedForm

/-- LDWR: operand modes 2 and 3 with a word (40_memory_reference.md R149; 30_encoding.md R123 and ruling C13 of
90_conflicts.md, which raise trap 5 for modes 0 and 1 and for another width; row U3 of 93_implementation_defined.md
names mode 3 alone, and that file defines no rule). -/
def decodeLdwr (w : Word) : Except Reject Instr :=
  match fld w 12 2, fld w 14 2 with
  | 2#2, 2#2 => ifZero w 10 2 (ifZero w 16 8 (.ok (.ldwrIdx (fld w 6 4) (fld w 24 4) (fld w 28 4))))
  | 3#2, 2#2 => ifZero w 10 2 (.ok (.ldwrOfs (fld w 6 4) (fld w 16 12) (fld w 28 4)))
  | _, _ => .error .undefinedForm

/-- STWC: operand mode 3 with a word (40_memory_reference.md R150). -/
def decodeStwc (w : Word) : Except Reject Instr :=
  match fld w 12 2, fld w 14 2 with
  | 3#2, 2#2 => ifZero w 10 2 (.ok (.stwc (fld w 6 4) (fld w 16 12) (fld w 28 4)))
  | _, _ => .error .undefinedForm

/-- CBR (30_encoding.md R113; conditions 42_branch.md R179). -/
def decodeCbr (w : Word) : Instr :=
  let d := fld w 9 15
  let a := fld w 24 4
  let b := fld w 28 4
  match fld w 6 3 with
  | 0#3 => .cbrEq d a b
  | 1#3 => .cbrLt d a b
  | 2#3 => .cbrGt d a b
  | 3#3 => .cbrLs d a b
  | 4#3 => .cbrNe d a b
  | 5#3 => .cbrLe d a b
  | 6#3 => .cbrGe d a b
  | _ => .cbrHi d a b

/-- LDEB, LDEH, LDEW and the indexed LDEXB, LDEXH, LDEXW (30_encoding.md R110). DESIGN CHOICE (log 27): a non-zero
reserved field of LDEXx (bits 16 to 23) is a rejection of its own, which takes trap 5 while ST.D = 0. 30_encoding.md
R128 tests reserved fields before the forms of R123, which would refuse such a word; R122 excepts those forms, and
40_memory_reference.md R144 has the trap before any other check. -/
def decodeLde (w : Word) : Except Reject Instr :=
  let r := fld w 6 4
  let m := bit w 11
  let seg := fld w 12 2
  let b := fld w 28 4
  if bit w 10 then
    let a := fld w 24 4
    decodeWidth w (ifZeroElse .reservedExtended w 16 8 (.ok (.ldexb r m seg a b)))
      (ifZeroElse .reservedExtended w 16 8 (.ok (.ldexh r m seg a b)))
      (ifZeroElse .reservedExtended w 16 8 (.ok (.ldexw r m seg a b)))
  else
    let d := fld w 16 12
    decodeWidth w (.ok (.ldeb r m seg d b)) (.ok (.ldeh r m seg d b)) (.ok (.ldew r m seg d b))

/-- STEB, STEH, STEW; bit 10 = 1 is an undefined form (30_encoding.md R110). -/
def decodeSte (w : Word) : Except Reject Instr :=
  let r := fld w 6 4
  let m := bit w 11
  let seg := fld w 12 2
  let d := fld w 16 12
  let b := fld w 28 4
  if bit w 10 then .error .undefinedForm
  else decodeWidth w (.ok (.steb r m seg d b)) (.ok (.steh r m seg d b)) (.ok (.stew r m seg d b))

/-- LDWA, LDWAX (30_encoding.md R111). -/
def decodeLdwa (w : Word) : Except Reject Instr :=
  if bit w 10 then ifZero w 12 12 (.ok (.ldwax (fld w 6 4) (bit w 11) (fld w 24 4) (fld w 28 4)))
  else .ok (.ldwa (fld w 6 4) (bit w 11) (fld w 12 16) (fld w 28 4))

/-- STWA; bit 10 = 1 is an undefined form (30_encoding.md R111). -/
def decodeStwa (w : Word) : Except Reject Instr :=
  if bit w 10 then .error .undefinedForm
  else .ok (.stwa (fld w 6 4) (bit w 11) (fld w 12 16) (fld w 28 4))

/-- LDPA: operand modes 2 and 3, dw not examined (44_system_control.md R224). -/
def decodeLdpa (w : Word) : Except Reject Instr :=
  match fld w 12 2 with
  | 2#2 => ifZero w 10 2 (ifZero w 16 8 (.ok (.ldpaIdx (fld w 6 4) (fld w 14 2) (fld w 24 4) (fld w 28 4))))
  | 3#2 => ifZero w 10 2 (.ok (.ldpaOfs (fld w 6 4) (fld w 14 2) (fld w 16 12) (fld w 28 4)))
  | _ => .error .undefinedForm

/-- ITLB (30_encoding.md R118). -/
def decodeItlb (w : Word) : Except Reject Instr :=
  ifZero w 12 13 (.ok
    (if bit w 11 then .itlbP (fld w 6 4) (bit w 10) (segRegField w) (fld w 28 4)
     else .itlbA (fld w 6 4) (bit w 10) (segRegField w) (fld w 28 4)))

/-- The instruction of a word: the opcode map of 30_encoding.md R120 and the procedure of R128. A word that is
no row of the table is an illegal instruction (R121, R123); a row's word with a non-zero reserved field is
rejected as such (R122). -/
def decodeWord (w : Word) : Except Reject Instr :=
  let r := fld w 6 4
  let a := fld w 24 4
  let b := fld w 28 4
  match fld w 0 6 with
  | 0x00#6 => ifZero w 10 6 (.ok (.brk (fld w 6 4) (fld w 16 16)))
  | 0x01#6 => .ok (.ldil r (fld w 10 22))
  | 0x02#6 => .ok (.addil r (fld w 10 22))
  | 0x04#6 => ifZero w 10 18 (.ok (.lsid r b))
  | 0x05#6 => ifZero w 12 6 (.ok (.extr r (bit w 10) (bit w 11) (fld w 18 5) (fld w 23 5) b))
  | 0x06#6 => decodeDep w
  | 0x07#6 => ifZero w 10 1 (ifZero w 12 7 (.ok (.dsr r (bit w 11) (fld w 19 5) a b)))
  | 0x08#6 => ifZero w 12 10 (.ok (.shla r (bit w 10) (bit w 11) (fld w 22 2) a b))
  | 0x09#6 => decodeCmr w
  | 0x0A#6 => decodeMr w
  | 0x0B#6 => decodeMst w
  | 0x10#6 => decodeOperand w (.addImm r (bit w 10) (bit w 11)) (.addReg r (bit w 10) (bit w 11))
      (.addIdx r (bit w 10) (bit w 11)) (.addOfs r (bit w 10) (bit w 11))
  | 0x11#6 => decodeOperand w (.addcImm r (bit w 10) (bit w 11)) (.addcReg r (bit w 10) (bit w 11))
      (.addcIdx r (bit w 10) (bit w 11)) (.addcOfs r (bit w 10) (bit w 11))
  | 0x12#6 => decodeOperand w (.subImm r (bit w 10) (bit w 11)) (.subReg r (bit w 10) (bit w 11))
      (.subIdx r (bit w 10) (bit w 11)) (.subOfs r (bit w 10) (bit w 11))
  | 0x13#6 => decodeOperand w (.subcImm r (bit w 10) (bit w 11)) (.subcReg r (bit w 10) (bit w 11))
      (.subcIdx r (bit w 10) (bit w 11)) (.subcOfs r (bit w 10) (bit w 11))
  | 0x14#6 => decodeOperand w (.andImm r (bit w 10) (bit w 11)) (.andReg r (bit w 10) (bit w 11))
      (.andIdx r (bit w 10) (bit w 11)) (.andOfs r (bit w 10) (bit w 11))
  | 0x15#6 => decodeOperand w (.orImm r (bit w 10) (bit w 11)) (.orReg r (bit w 10) (bit w 11))
      (.orIdx r (bit w 10) (bit w 11)) (.orOfs r (bit w 10) (bit w 11))
  | 0x16#6 => decodeOperand w (.xorImm r (bit w 10) (bit w 11)) (.xorReg r (bit w 10) (bit w 11))
      (.xorIdx r (bit w 10) (bit w 11)) (.xorOfs r (bit w 10) (bit w 11))
  | 0x17#6 => decodeOperand w (.cmpImm r (fld w 10 2)) (.cmpReg r (fld w 10 2))
      (.cmpIdx r (fld w 10 2)) (.cmpOfs r (fld w 10 2))
  | 0x18#6 => decodeOperand w (.cmpuImm r (fld w 10 2)) (.cmpuReg r (fld w 10 2))
      (.cmpuIdx r (fld w 10 2)) (.cmpuOfs r (fld w 10 2))
  | 0x1A#6 => decodeLd w
  | 0x1B#6 => decodeSt w
  | 0x1C#6 => decodeLdwr w
  | 0x1D#6 => decodeStwc w
  | 0x20#6 => .ok (.branch r (fld w 10 22))
  | 0x21#6 => .ok (.gate r (fld w 10 22))
  | 0x22#6 => ifZero w 10 18 (.ok (.br r b))
  | 0x23#6 => ifZero w 6 18 (.ok (.bv a b))
  | 0x24#6 => ifZero w 24 1 (.ok (.be (fld w 6 18) (segRegField w) b))
  | 0x25#6 => ifZero w 24 1 (.ok (.ble (fld w 6 18) (segRegField w) b))
  | 0x26#6 => ifZero w 6 18 (.ok (.bve a b))
  | 0x27#6 => .ok (decodeCbr w)
  | 0x30#6 => decodeLde w
  | 0x31#6 => decodeSte w
  | 0x32#6 => decodeLdwa w
  | 0x33#6 => decodeStwa w
  | 0x39#6 => decodeLdpa w
  | 0x3A#6 => ifZero w 13 1 (ifZero w 16 8 (.ok (.prb r (bit w 10) (bit w 11) (bit w 12) (fld w 14 2) a b)))
  | 0x3B#6 => decodeItlb w
  | 0x3C#6 => ifZero w 6 4 (ifZero w 11 14 (.ok (.ptlb (bit w 10) (segRegField w) b)))
  | 0x3D#6 => ifZero w 6 4 (ifZero w 12 13 (.ok (.pca (bit w 10) (bit w 11) (segRegField w) b)))
  | 0x3E#6 => ifZero w 10 14 (.ok (.diag r a b))
  | 0x3F#6 => ifZero w 6 26 (.ok .rfi)
  | op => if op = Config.opcLdo then decodeLdo w else .error .unassignedOpcode

/-- The word of four bytes in storage order: the first is the most significant (20_memory.md R51). -/
def wordOfBytes (b0 b1 b2 b3 : Byte) : Word := put 0 b0 ||| put 8 b1 ||| put 16 b2 ||| put 24 b3

/-- The bytes of a word in storage order (20_memory.md R51). -/
def bytesOfWord (w : Word) : List Byte := [fld w 0 8, fld w 8 8, fld w 16 8, fld w 24 8]

/-- Reading one instruction from a list of bytes: the instruction and the bytes after it. Every instruction is
one word (30_encoding.md R100). -/
def decode : List Byte → Except Reject (Instr × List Byte)
  | b0 :: b1 :: b2 :: b3 :: rest =>
    match decodeWord (wordOfBytes b0 b1 b2 b3) with
    | .ok i => .ok (i, rest)
    | .error e => .error e
  | _ => .error .truncated

/-- The instruction the decoder reads from a word of the opcode table, given as the number of its bits. -/
def decodeTableWord (nbits w : Nat) : Option Instr :=
  match decode (bytesOfWord (BitVec.ofNat 32 (w % 2 ^ nbits))) with
  | .ok (i, _) => some i
  | .error _ => none

/-- The word of an instruction (30_encoding.md R101 to R118, opcodes R120): the opcode and the fields, each at
its place, every other bit zero. -/
def encode : Instr → Word
  | .brk info1 info2 => put 0 0x00#6 ||| put 6 info1 ||| put 16 info2
  | .ldil r val22 => put 0 0x01#6 ||| put 6 r ||| put 10 val22
  | .addil r val22 => put 0 0x02#6 ||| put 6 r ||| put 10 val22
  | .ldoImm r val => put 0 Config.opcLdo ||| put 6 r ||| put 14 val
  | .ldoIdx r dw a b => put 0 Config.opcLdo ||| put 6 r ||| put 12 2#2 ||| put 14 dw ||| put 24 a ||| put 28 b
  | .ldoOfs r dw ofs b => put 0 Config.opcLdo ||| put 6 r ||| put 12 3#2 ||| put 14 dw ||| put 16 ofs ||| put 28 b
  | .lsid r b => put 0 0x04#6 ||| put 6 r ||| put 28 b
  | .extr r sg av len pos b => put 0 0x05#6 ||| put 6 r ||| putBit 10 sg ||| putBit 11 av ||| put 18 len ||| put 23 pos ||| put 28 b
  | .depReg r z av len pos b => put 0 0x06#6 ||| put 6 r ||| putBit 10 z ||| putBit 11 av ||| put 18 len ||| put 23 pos ||| put 28 b
  | .depImm r z av len pos imm4 => put 0 0x06#6 ||| put 6 r ||| putBit 10 z ||| putBit 11 av ||| put 12 1#1 ||| put 18 len ||| put 23 pos ||| put 28 imm4
  | .dsr r av sh a b => put 0 0x07#6 ||| put 6 r ||| putBit 11 av ||| put 19 sh ||| put 24 a ||| put 28 b
  | .shla r l o sa a b => put 0 0x08#6 ||| put 6 r ||| putBit 10 l ||| putBit 11 o ||| put 22 sa ||| put 24 a ||| put 28 b
  | .cmrEq r a b => put 0 0x09#6 ||| put 6 r ||| put 24 a ||| put 28 b
  | .cmrLt r a b => put 0 0x09#6 ||| put 6 r ||| put 10 1#3 ||| put 24 a ||| put 28 b
  | .cmrGt r a b => put 0 0x09#6 ||| put 6 r ||| put 10 2#3 ||| put 24 a ||| put 28 b
  | .cmrEv r a b => put 0 0x09#6 ||| put 6 r ||| put 10 3#3 ||| put 24 a ||| put 28 b
  | .cmrNe r a b => put 0 0x09#6 ||| put 6 r ||| put 10 4#3 ||| put 24 a ||| put 28 b
  | .cmrLe r a b => put 0 0x09#6 ||| put 6 r ||| put 10 5#3 ||| put 24 a ||| put 28 b
  | .cmrGe r a b => put 0 0x09#6 ||| put 6 r ||| put 10 6#3 ||| put 24 a ||| put 28 b
  | .cmrOd r a b => put 0 0x09#6 ||| put 6 r ||| put 10 7#3 ||| put 24 a ||| put 28 b
  | .mrFromSr r sr => put 0 0x0A#6 ||| put 6 r ||| put 29 sr
  | .mrFromCr r cr => put 0 0x0A#6 ||| put 6 r ||| put 11 1#1 ||| put 27 cr
  | .mrToSr r sr => put 0 0x0A#6 ||| put 6 r ||| put 10 1#1 ||| put 29 sr
  | .mrToCr r cr => put 0 0x0A#6 ||| put 6 r ||| put 10 3#2 ||| put 27 cr
  | .mst r b => put 0 0x0B#6 ||| put 6 r ||| put 28 b
  | .mstSet r val6 => put 0 0x0B#6 ||| put 6 r ||| put 10 1#2 ||| put 26 val6
  | .mstClear r val6 => put 0 0x0B#6 ||| put 6 r ||| put 10 2#2 ||| put 26 val6
  | .addImm r o l val => put 0 0x10#6 ||| put 6 r ||| putBit 10 o ||| putBit 11 l ||| put 14 val
  | .addReg r o l a b => put 0 0x10#6 ||| put 6 r ||| putBit 10 o ||| putBit 11 l ||| put 12 1#2 ||| put 24 a ||| put 28 b
  | .addIdx r o l dw a b => put 0 0x10#6 ||| put 6 r ||| putBit 10 o ||| putBit 11 l ||| put 12 2#2 ||| put 14 dw ||| put 24 a ||| put 28 b
  | .addOfs r o l dw ofs b => put 0 0x10#6 ||| put 6 r ||| putBit 10 o ||| putBit 11 l ||| put 12 3#2 ||| put 14 dw ||| put 16 ofs ||| put 28 b
  | .addcImm r o l val => put 0 0x11#6 ||| put 6 r ||| putBit 10 o ||| putBit 11 l ||| put 14 val
  | .addcReg r o l a b => put 0 0x11#6 ||| put 6 r ||| putBit 10 o ||| putBit 11 l ||| put 12 1#2 ||| put 24 a ||| put 28 b
  | .addcIdx r o l dw a b => put 0 0x11#6 ||| put 6 r ||| putBit 10 o ||| putBit 11 l ||| put 12 2#2 ||| put 14 dw ||| put 24 a ||| put 28 b
  | .addcOfs r o l dw ofs b => put 0 0x11#6 ||| put 6 r ||| putBit 10 o ||| putBit 11 l ||| put 12 3#2 ||| put 14 dw ||| put 16 ofs ||| put 28 b
  | .subImm r o l val => put 0 0x12#6 ||| put 6 r ||| putBit 10 o ||| putBit 11 l ||| put 14 val
  | .subReg r o l a b => put 0 0x12#6 ||| put 6 r ||| putBit 10 o ||| putBit 11 l ||| put 12 1#2 ||| put 24 a ||| put 28 b
  | .subIdx r o l dw a b => put 0 0x12#6 ||| put 6 r ||| putBit 10 o ||| putBit 11 l ||| put 12 2#2 ||| put 14 dw ||| put 24 a ||| put 28 b
  | .subOfs r o l dw ofs b => put 0 0x12#6 ||| put 6 r ||| putBit 10 o ||| putBit 11 l ||| put 12 3#2 ||| put 14 dw ||| put 16 ofs ||| put 28 b
  | .subcImm r o l val => put 0 0x13#6 ||| put 6 r ||| putBit 10 o ||| putBit 11 l ||| put 14 val
  | .subcReg r o l a b => put 0 0x13#6 ||| put 6 r ||| putBit 10 o ||| putBit 11 l ||| put 12 1#2 ||| put 24 a ||| put 28 b
  | .subcIdx r o l dw a b => put 0 0x13#6 ||| put 6 r ||| putBit 10 o ||| putBit 11 l ||| put 12 2#2 ||| put 14 dw ||| put 24 a ||| put 28 b
  | .subcOfs r o l dw ofs b => put 0 0x13#6 ||| put 6 r ||| putBit 10 o ||| putBit 11 l ||| put 12 3#2 ||| put 14 dw ||| put 16 ofs ||| put 28 b
  | .andImm r n c val => put 0 0x14#6 ||| put 6 r ||| putBit 10 n ||| putBit 11 c ||| put 14 val
  | .andReg r n c a b => put 0 0x14#6 ||| put 6 r ||| putBit 10 n ||| putBit 11 c ||| put 12 1#2 ||| put 24 a ||| put 28 b
  | .andIdx r n c dw a b => put 0 0x14#6 ||| put 6 r ||| putBit 10 n ||| putBit 11 c ||| put 12 2#2 ||| put 14 dw ||| put 24 a ||| put 28 b
  | .andOfs r n c dw ofs b => put 0 0x14#6 ||| put 6 r ||| putBit 10 n ||| putBit 11 c ||| put 12 3#2 ||| put 14 dw ||| put 16 ofs ||| put 28 b
  | .orImm r n c val => put 0 0x15#6 ||| put 6 r ||| putBit 10 n ||| putBit 11 c ||| put 14 val
  | .orReg r n c a b => put 0 0x15#6 ||| put 6 r ||| putBit 10 n ||| putBit 11 c ||| put 12 1#2 ||| put 24 a ||| put 28 b
  | .orIdx r n c dw a b => put 0 0x15#6 ||| put 6 r ||| putBit 10 n ||| putBit 11 c ||| put 12 2#2 ||| put 14 dw ||| put 24 a ||| put 28 b
  | .orOfs r n c dw ofs b => put 0 0x15#6 ||| put 6 r ||| putBit 10 n ||| putBit 11 c ||| put 12 3#2 ||| put 14 dw ||| put 16 ofs ||| put 28 b
  | .xorImm r n c val => put 0 0x16#6 ||| put 6 r ||| putBit 10 n ||| putBit 11 c ||| put 14 val
  | .xorReg r n c a b => put 0 0x16#6 ||| put 6 r ||| putBit 10 n ||| putBit 11 c ||| put 12 1#2 ||| put 24 a ||| put 28 b
  | .xorIdx r n c dw a b => put 0 0x16#6 ||| put 6 r ||| putBit 10 n ||| putBit 11 c ||| put 12 2#2 ||| put 14 dw ||| put 24 a ||| put 28 b
  | .xorOfs r n c dw ofs b => put 0 0x16#6 ||| put 6 r ||| putBit 10 n ||| putBit 11 c ||| put 12 3#2 ||| put 14 dw ||| put 16 ofs ||| put 28 b
  | .cmpImm r cond val => put 0 0x17#6 ||| put 6 r ||| put 10 cond ||| put 14 val
  | .cmpReg r cond a b => put 0 0x17#6 ||| put 6 r ||| put 10 cond ||| put 12 1#2 ||| put 24 a ||| put 28 b
  | .cmpIdx r cond dw a b => put 0 0x17#6 ||| put 6 r ||| put 10 cond ||| put 12 2#2 ||| put 14 dw ||| put 24 a ||| put 28 b
  | .cmpOfs r cond dw ofs b => put 0 0x17#6 ||| put 6 r ||| put 10 cond ||| put 12 3#2 ||| put 14 dw ||| put 16 ofs ||| put 28 b
  | .cmpuImm r cond val => put 0 0x18#6 ||| put 6 r ||| put 10 cond ||| put 14 val
  | .cmpuReg r cond a b => put 0 0x18#6 ||| put 6 r ||| put 10 cond ||| put 12 1#2 ||| put 24 a ||| put 28 b
  | .cmpuIdx r cond dw a b => put 0 0x18#6 ||| put 6 r ||| put 10 cond ||| put 12 2#2 ||| put 14 dw ||| put 24 a ||| put 28 b
  | .cmpuOfs r cond dw ofs b => put 0 0x18#6 ||| put 6 r ||| put 10 cond ||| put 12 3#2 ||| put 14 dw ||| put 16 ofs ||| put 28 b
  | .ldbIdx r m a b => put 0 0x1A#6 ||| put 6 r ||| putBit 11 m ||| put 12 2#2 ||| put 24 a ||| put 28 b
  | .ldhIdx r m a b => put 0 0x1A#6 ||| put 6 r ||| putBit 11 m ||| put 12 2#2 ||| put 14 1#2 ||| put 24 a ||| put 28 b
  | .ldwIdx r m a b => put 0 0x1A#6 ||| put 6 r ||| putBit 11 m ||| put 12 2#2 ||| put 14 2#2 ||| put 24 a ||| put 28 b
  | .ldbOfs r m ofs b => put 0 0x1A#6 ||| put 6 r ||| putBit 11 m ||| put 12 3#2 ||| put 16 ofs ||| put 28 b
  | .ldhOfs r m ofs b => put 0 0x1A#6 ||| put 6 r ||| putBit 11 m ||| put 12 3#2 ||| put 14 1#2 ||| put 16 ofs ||| put 28 b
  | .ldwOfs r m ofs b => put 0 0x1A#6 ||| put 6 r ||| putBit 11 m ||| put 12 3#2 ||| put 14 2#2 ||| put 16 ofs ||| put 28 b
  | .stb r m ofs b => put 0 0x1B#6 ||| put 6 r ||| putBit 11 m ||| put 12 3#2 ||| put 16 ofs ||| put 28 b
  | .sth r m ofs b => put 0 0x1B#6 ||| put 6 r ||| putBit 11 m ||| put 12 3#2 ||| put 14 1#2 ||| put 16 ofs ||| put 28 b
  | .stw r m ofs b => put 0 0x1B#6 ||| put 6 r ||| putBit 11 m ||| put 12 3#2 ||| put 14 2#2 ||| put 16 ofs ||| put 28 b
  | .ldwrIdx r a b => put 0 0x1C#6 ||| put 6 r ||| put 12 2#2 ||| put 14 2#2 ||| put 24 a ||| put 28 b
  | .ldwrOfs r ofs b => put 0 0x1C#6 ||| put 6 r ||| put 12 3#2 ||| put 14 2#2 ||| put 16 ofs ||| put 28 b
  | .stwc r ofs b => put 0 0x1D#6 ||| put 6 r ||| put 12 3#2 ||| put 14 2#2 ||| put 16 ofs ||| put 28 b
  | .branch r ofs22 => put 0 0x20#6 ||| put 6 r ||| put 10 ofs22
  | .gate r ofs22 => put 0 0x21#6 ||| put 6 r ||| put 10 ofs22
  | .br r b => put 0 0x22#6 ||| put 6 r ||| put 28 b
  | .bv a b => put 0 0x23#6 ||| put 24 a ||| put 28 b
  | .be ofs18 sreg b => put 0 0x24#6 ||| put 6 ofs18 ||| put 24 sreg ||| put 28 b
  | .ble ofs18 sreg b => put 0 0x25#6 ||| put 6 ofs18 ||| put 24 sreg ||| put 28 b
  | .bve a b => put 0 0x26#6 ||| put 24 a ||| put 28 b
  | .cbrEq ofs15 a b => put 0 0x27#6 ||| put 9 ofs15 ||| put 24 a ||| put 28 b
  | .cbrLt ofs15 a b => put 0 0x27#6 ||| put 6 1#3 ||| put 9 ofs15 ||| put 24 a ||| put 28 b
  | .cbrGt ofs15 a b => put 0 0x27#6 ||| put 6 2#3 ||| put 9 ofs15 ||| put 24 a ||| put 28 b
  | .cbrLs ofs15 a b => put 0 0x27#6 ||| put 6 3#3 ||| put 9 ofs15 ||| put 24 a ||| put 28 b
  | .cbrNe ofs15 a b => put 0 0x27#6 ||| put 6 4#3 ||| put 9 ofs15 ||| put 24 a ||| put 28 b
  | .cbrLe ofs15 a b => put 0 0x27#6 ||| put 6 5#3 ||| put 9 ofs15 ||| put 24 a ||| put 28 b
  | .cbrGe ofs15 a b => put 0 0x27#6 ||| put 6 6#3 ||| put 9 ofs15 ||| put 24 a ||| put 28 b
  | .cbrHi ofs15 a b => put 0 0x27#6 ||| put 6 7#3 ||| put 9 ofs15 ||| put 24 a ||| put 28 b
  | .ldeb r m seg ofs b => put 0 0x30#6 ||| put 6 r ||| putBit 11 m ||| put 12 seg ||| put 16 ofs ||| put 28 b
  | .ldeh r m seg ofs b => put 0 0x30#6 ||| put 6 r ||| putBit 11 m ||| put 12 seg ||| put 14 1#2 ||| put 16 ofs ||| put 28 b
  | .ldew r m seg ofs b => put 0 0x30#6 ||| put 6 r ||| putBit 11 m ||| put 12 seg ||| put 14 2#2 ||| put 16 ofs ||| put 28 b
  | .ldexb r m seg a b => put 0 0x30#6 ||| put 6 r ||| put 10 1#1 ||| putBit 11 m ||| put 12 seg ||| put 24 a ||| put 28 b
  | .ldexh r m seg a b => put 0 0x30#6 ||| put 6 r ||| put 10 1#1 ||| putBit 11 m ||| put 12 seg ||| put 14 1#2 ||| put 24 a ||| put 28 b
  | .ldexw r m seg a b => put 0 0x30#6 ||| put 6 r ||| put 10 1#1 ||| putBit 11 m ||| put 12 seg ||| put 14 2#2 ||| put 24 a ||| put 28 b
  | .steb r m seg ofs b => put 0 0x31#6 ||| put 6 r ||| putBit 11 m ||| put 12 seg ||| put 16 ofs ||| put 28 b
  | .steh r m seg ofs b => put 0 0x31#6 ||| put 6 r ||| putBit 11 m ||| put 12 seg ||| put 14 1#2 ||| put 16 ofs ||| put 28 b
  | .stew r m seg ofs b => put 0 0x31#6 ||| put 6 r ||| putBit 11 m ||| put 12 seg ||| put 14 2#2 ||| put 16 ofs ||| put 28 b
  | .ldwa r m ofs16 b => put 0 0x32#6 ||| put 6 r ||| putBit 11 m ||| put 12 ofs16 ||| put 28 b
  | .ldwax r m a b => put 0 0x32#6 ||| put 6 r ||| put 10 1#1 ||| putBit 11 m ||| put 24 a ||| put 28 b
  | .stwa r m ofs16 b => put 0 0x33#6 ||| put 6 r ||| putBit 11 m ||| put 12 ofs16 ||| put 28 b
  | .ldpaIdx r dw a b => put 0 0x39#6 ||| put 6 r ||| put 12 2#2 ||| put 14 dw ||| put 24 a ||| put 28 b
  | .ldpaOfs r dw ofs b => put 0 0x39#6 ||| put 6 r ||| put 12 3#2 ||| put 14 dw ||| put 16 ofs ||| put 28 b
  | .prb r m p byReg seg a b => put 0 0x3A#6 ||| put 6 r ||| putBit 10 m ||| putBit 11 p ||| putBit 12 byReg ||| put 14 seg ||| put 24 a ||| put 28 b
  | .itlbA r t sreg b => put 0 0x3B#6 ||| put 6 r ||| putBit 10 t ||| put 24 sreg ||| put 28 b
  | .itlbP r t sreg b => put 0 0x3B#6 ||| put 6 r ||| putBit 10 t ||| put 11 1#1 ||| put 24 sreg ||| put 28 b
  | .ptlb t sreg b => put 0 0x3C#6 ||| putBit 10 t ||| put 24 sreg ||| put 28 b
  | .pca t f sreg b => put 0 0x3D#6 ||| putBit 10 t ||| putBit 11 f ||| put 24 sreg ||| put 28 b
  | .diag r a b => put 0 0x3E#6 ||| put 6 r ||| put 24 a ||| put 28 b
  | .rfi => put 0 0x3F#6

end Sys2Proof
end

