-- ==== Sys2Proof/Machine/State.lean ====
section
/-! DEFINITION. The state of the machine (10_state.md), the reasons a step can stop, and the state after reset
(10_state.md R45). All of it is plain data. -/

namespace Sys2Proof.Machine

/-- Physical memory (20_memory.md R50): the bytes that differ from what an unlisted address reads as, by strictly
rising address. -/
abbrev Memory := List Host.Cell

/-- A TLB entry (20_memory.md R74). Its tag is (`seg`, `vpn`). -/
structure TlbEntry where
  /-- VPN-H, the segment id. -/
  seg : Word
  /-- VPN-L, the page in the segment. -/
  vpn : BitVec (32 - Config.pageBits)
  /-- Valid. -/
  v : Bool
  /-- Page reference trap (R73). -/
  t : Bool
  /-- Dirty trap (R73). -/
  d : Bool
  /-- Data reference trap (R73). -/
  b : Bool
  /-- Stored, read by no rule (R73). -/
  x : Bool
  /-- Access rights: page type, PL1, PL2 (R70). -/
  ar : BitVec 4
  /-- Protection id (R72). -/
  pid : BitVec 15
  /-- Physical page number. -/
  ppn : BitVec (32 - Config.pageBits)
  deriving DecidableEq, Repr

/-- A dirty line of the data cache, for CACHE_MODEL = split: the bytes memory still holds for it; the line's own
bytes are those of `State.mem` (20_memory.md R91). -/
structure DirtyLine where
  line : Nat
  flushed : List Byte
  deriving DecidableEq, Repr

/-- A line whose instruction view is older than memory, for CACHE_MODEL = split (20_memory.md R92): the bytes of
the instruction view, and, once the line has been flushed, the bytes its last flush wrote to memory, which the next
purge of the instruction line brings into that view. -/
structure StaleLine where
  line : Nat
  old : List Byte
  flushed : Option (List Byte)
  deriving DecidableEq, Repr

/-- Everything the spec gives the machine (10_state.md), and two fields of the model's own, `freeCount` and
`fetched`. -/
structure State where
  /-- GR0..GR15 (R10); GR0 reads as zero whatever slot 0 holds (R11). -/
  gr : Vector Word 16
  /-- SR0..SR7 (R13). -/
  sr : Vector Word 8
  /-- CR0..CR31 (R25). -/
  cr : Vector Word 32
  /-- IA-SEG (R15). -/
  iaSeg : Word
  /-- IA-OFS (R15, R16). -/
  iaOfs : Word
  /-- ST (R19, R20). -/
  st : Word
  /-- Instruction TLB (R40), by rising tag. -/
  itlb : List TlbEntry
  /-- Data TLB (R40), by rising tag. -/
  dtlb : List TlbEntry
  /-- The load reservation holds (R42). -/
  lrValid : Bool
  /-- The physical address of the reserved word (R42). -/
  lrAddr : Word
  /-- Physical memory with the PDC image (20_memory.md R50, R57), as the core's data accesses see it. -/
  mem : Memory
  /-- The words of the PDC region where the platform has placed code (20_memory.md R57, 60_exceptions.md R301), by
  rising word number, a physical address divided by four; their bytes are in `mem`. No step changes it. -/
  pdcWords : List Nat
  /-- Data cache (R41): its dirty lines, by rising number. -/
  dcache : List DirtyLine
  /-- Instruction cache (R41): its stale lines, by rising number. -/
  icache : List StaleLine
  /-- The external interrupt request input (R43, 60_exceptions.md R285); no step changes it. -/
  extPending : Word
  /-- The model's own: how many arbitrary choices have been drawn from `Config.freeChoice`. -/
  freeCount : Nat
  /-- The model's own: the word of the instruction that runs, as fetched. Kept where RESERVED_NONZERO = ignore, for the
  traps that report it (30_encoding.md R128, 60_exceptions.md R279). -/
  fetched : Word
  deriving DecidableEq, Repr

/-- Why the machine stops with a fault. -/
inductive Fault where
  /-- Raised by an access to a physical address with nothing behind it (20_memory.md R57, UNMAPPED = refuse): past
  MEM_SIZE, a read where no PDC code is placed, between the PDC region and the IO window. Safe: the spec says the run is outside the specification. -/
  | unmapped (paddr : Word)
  deriving DecidableEq, Repr

/-- Why the machine stops without a meaning. -/
inductive Refusal where
  /-- Raised by an arm of `exec` whose instruction has no meaning yet. Safe: the run stops. -/
  | notModelled (mnemonic : String)
  /-- Raised by a store to the PDC region, which is the platform's (20_memory.md R57). Safe: the run stops. -/
  | pdcWrite (paddr : Word)
  /-- Raised by an access to the IO memory window, which belongs to devices the spec does not describe
  (20_memory.md R57, 60_exceptions.md R301). Safe: the run stops. -/
  | ioAccess (paddr : Word)
  /-- Raised by a word with a non-zero reserved field (30_encoding.md R122, RESERVED_NONZERO = refuse). Safe: the
  run stops. -/
  | reservedField (word : Word)
  /-- Raised by EXTR and DEP for a field that leaves the word (43_computational.md R207). Safe: the run stops. -/
  | bitFieldBeyondWord
  /-- Raised by EXTR and DEP for a field of length 0 where BITF_LEN0 = refuse, which is not the default
  (43_computational.md R207). Safe: the run stops. -/
  | emptyBitField
  deriving DecidableEq, Repr

/-- The machine right after reset (10_state.md R45). IA-SEG, IA-OFS, ST, the TLBs, the caches and the reservation
flag are as R45 says. GR1..GR15, SR0..SR7, CR0..CR31, the reservation address (log 1), memory (log 2), no PDC
code placed yet (log 18), `freeCount` (log 8) and `fetched` (log 5) are DESIGN CHOICES; `extPending` is the default
platform's (log 10). -/
def State.reset : State where
  gr := Vector.replicate 16 0#32
  sr := Vector.replicate 8 0#32
  cr := Vector.replicate 32 0#32
  iaSeg := 0#32
  iaOfs := Config.resetIaOfs
  st := 0#32
  itlb := []
  dtlb := []
  lrValid := false
  lrAddr := 0#32
  mem := []
  pdcWords := []
  dcache := []
  icache := []
  extPending := 0#32
  freeCount := 0
  fetched := 0#32

end Sys2Proof.Machine
end

