-- ==== Sys2Proof/Machine/Memory.lean ====
section
/-! DEFINITION. Lists in one canonical order, and physical memory as a list of bytes: reading and writing one, two
and four bytes in big-endian order (20_memory.md R51, R52). -/

namespace Sys2Proof.Machine

/-- The entry with key `k`. -/
def sortedFind {α : Type} (key : α → Nat) (k : Nat) (l : List α) : Option α :=
  l.find? (fun x => key x == k)

/-- Puts `x` in its place, in place of an entry with the same key. -/
def sortedInsert {α : Type} (key : α → Nat) (x : α) : List α → List α
  | [] => [x]
  | y :: ys =>
    if key x < key y then x :: y :: ys
    else if key x = key y then x :: ys
    else y :: sortedInsert key x ys

/-- Removes the entry with key `k`. -/
def sortedErase {α : Type} (key : α → Nat) (k : Nat) (l : List α) : List α :=
  l.filter (fun x => key x != k)

/-- Keys strictly rise along the list. -/
abbrev Rising {α : Type} (key : α → Nat) (l : List α) : Prop :=
  l.Pairwise (fun x y => key x < key y)

/-- What a byte that nothing has written reads as. DESIGN CHOICE (10_state.md R45 leaves it unspecified).
Unsafe; log 2. -/
def Memory.unlisted : Byte := 0#8

/-- The canonical form of memory: addresses rise, are 32-bit addresses, and no entry repeats `Memory.unlisted`. -/
abbrev Memory.wf (m : Memory) : Prop :=
  Rising Prod.fst m ∧ ∀ c ∈ m, c.1 < 2 ^ 32 ∧ c.2 ≠ Memory.unlisted

/-- One byte of memory. -/
def Memory.readByte (m : Memory) (a : Nat) : Byte :=
  match sortedFind Prod.fst a m with
  | some c => c.2
  | none => Memory.unlisted

/-- Memory with one byte written, in canonical form. -/
def Memory.writeByte (m : Memory) (a : Nat) (v : Byte) : Memory :=
  if v = Memory.unlisted then sortedErase Prod.fst a m else sortedInsert Prod.fst (a, v) m

/-- How many bytes a width is (20_memory.md R52). -/
def accessBytes : Width → Nat
  | .byte => 1
  | .half => 2
  | .word => 4

/-- Byte `k` of a word, counted from the most significant (20_memory.md R51). -/
def byteOf (w : Word) (k : Nat) : Byte := fld w (8 * k) 8

/-- A big-endian read, zero-extended (20_memory.md R51, R52, R58). -/
def Memory.read (m : Memory) (a : Nat) : Width → Word
  | .byte => wordOfBytes 0#8 0#8 0#8 (m.readByte a)
  | .half => wordOfBytes 0#8 0#8 (m.readByte a) (m.readByte (a + 1))
  | .word => wordOfBytes (m.readByte a) (m.readByte (a + 1)) (m.readByte (a + 2)) (m.readByte (a + 3))

/-- A big-endian write of the rightmost bytes of `v` (20_memory.md R51, R52, R59). -/
def Memory.write (m : Memory) (a : Nat) (v : Word) : Width → Memory
  | .byte => m.writeByte a (byteOf v 3)
  | .half => (m.writeByte a (byteOf v 2)).writeByte (a + 1) (byteOf v 3)
  | .word =>
    (((m.writeByte a (byteOf v 0)).writeByte (a + 1) (byteOf v 1)).writeByte (a + 2) (byteOf v 2)).writeByte
      (a + 3) (byteOf v 3)

/-- The `n` bytes from address `a` on. -/
def Memory.readLine (m : Memory) (a n : Nat) : List Byte := (List.range n).map (fun k => m.readByte (a + k))

end Sys2Proof.Machine
end

