-- ==== Sys2Proof/Machine/Cache.lean ====
section
/-! DEFINITION. What the caches make visible (20_memory.md R90 to R93). With CACHE_MODEL = coherent none of these
operations changes anything; with split they keep the dirty lines of the data cache and the lines whose
instruction view is older than memory. -/

namespace Sys2Proof.Machine

/-- The number of the cache line that holds a physical address. -/
def lineOf (paddr : Word) : Nat := paddr.toNat / Config.cacheLineBytes

/-- The bytes of a line as the core's data accesses see them. -/
def State.lineBytes (s : State) (line : Nat) : List Byte :=
  s.mem.readLine (line * Config.cacheLineBytes) Config.cacheLineBytes

/-- The line becomes dirty in the data cache, if it is not yet: memory keeps the bytes it has (20_memory.md R91). -/
def State.markDirty (s : State) (line : Nat) : State :=
  match sortedFind DirtyLine.line line s.dcache with
  | some _ => s
  | none =>
    { s with dcache := sortedInsert DirtyLine.line { line := line, flushed := s.lineBytes line } s.dcache }

/-- The line becomes stale for fetch, if it is not yet: the instruction view keeps the bytes it has, and what a flush
has written stays written (20_memory.md R92). -/
def State.markStale (s : State) (line : Nat) : State :=
  match sortedFind StaleLine.line line s.icache with
  | some _ => s
  | none =>
    { s with icache :=
        sortedInsert StaleLine.line { line := line, old := s.lineBytes line, flushed := none } s.icache }

/-- A stale line's bytes reach memory, where the instruction side can find them (20_memory.md R92). -/
def State.flushStale (s : State) (line : Nat) : State :=
  match sortedFind StaleLine.line line s.icache with
  | some e =>
    { s with icache := sortedInsert StaleLine.line { e with flushed := some (s.lineBytes line) } s.icache }
  | none => s

/-- A stale line is fetched anew: the instruction view takes the bytes of the last flush, so that a store before it is
seen for certain. The line stays stale where a store after it has made other bytes (20_memory.md R92). -/
def State.purgeStale (s : State) (line : Nat) : State :=
  match sortedFind StaleLine.line line s.icache with
  | some { flushed := some bytes, .. } =>
    { s with icache :=
        if bytes = s.lineBytes line then sortedErase StaleLine.line line s.icache
        else sortedInsert StaleLine.line { line := line, old := bytes, flushed := none } s.icache }
  | _ => s

/-- What the caches note of a store about to be made to a line of memory. -/
def State.noteStore (s : State) (paddr : Word) : State :=
  match Config.cacheModel with
  | .coherent => s
  | .split => (s.markDirty (lineOf paddr)).markStale (lineOf paddr)

/-- flushDataCache (20_memory.md R91, R92): the line's stores reach memory. -/
def State.flushData (s : State) (paddr : Word) : State :=
  match Config.cacheModel with
  | .coherent => s
  | .split => { s.flushStale (lineOf paddr) with dcache := sortedErase DirtyLine.line (lineOf paddr) s.dcache }

/-- Each byte from address `a` on is, by an arbitrary choice, given back its flushed value or left. -/
def revertBytes (m : Memory) (a choice : Nat) : List Byte → Memory
  | [] => m
  | v :: vs =>
    revertBytes (if Config.freeChoice choice % 2 = 0 then m.writeByte a v else m) (a + 1) (choice + 1) vs

/-- purgeDataCache (20_memory.md R91): a dirty line is discarded; each of its bytes reverts, or not. -/
def State.purgeData (s : State) (paddr : Word) : State :=
  match Config.cacheModel with
  | .coherent => s
  | .split =>
    match sortedFind DirtyLine.line (lineOf paddr) s.dcache with
    | none => s
    | some d =>
      { s with
        mem := revertBytes s.mem (d.line * Config.cacheLineBytes) s.freeCount d.flushed
        dcache := sortedErase DirtyLine.line (lineOf paddr) s.dcache
        freeCount := s.freeCount + d.flushed.length }

/-- purgeInstructionCache (20_memory.md R92): the line is fetched anew, as far as it has been flushed. -/
def State.purgeInstr (s : State) (paddr : Word) : State :=
  match Config.cacheModel with
  | .coherent => s
  | .split => s.purgeStale (lineOf paddr)

/-- The word of a line at a byte offset. -/
def lineWord (bytes : List Byte) (k : Nat) : Word :=
  wordOfBytes (bytes.getD k 0) (bytes.getD (k + 1) 0) (bytes.getD (k + 2) 0) (bytes.getD (k + 3) 0)

/-- The word a fetch from a physical address returns (20_memory.md R63, R92), where `new` is the word there: that
word; from a stale line, by an arbitrary choice, the old or the new one. -/
def State.fetchWord (s : State) (paddr new : Word) : Word × State :=
  match Config.cacheModel with
  | .coherent => (new, s)
  | .split =>
    match sortedFind StaleLine.line (lineOf paddr) s.icache with
    | none => (new, s)
    | some e =>
      (if Config.freeChoice s.freeCount % 2 = 0
        then lineWord e.old (paddr.toNat % Config.cacheLineBytes) else new,
       { s with freeCount := s.freeCount + 1 })

end Sys2Proof.Machine
end

