-- ==== Sys2Proof/Machine/Flags.lean ====
section
/-! DEFINITION. The flags of ST (10_state.md R20, ST_LAYOUT, decision D2) and the exact arithmetic that carry,
borrow and overflow are read from (43_computational.md R195). -/

namespace Sys2Proof.Machine

/-- Bit i of a status word, the spec's numbering. -/
def stBit (w : Word) (i : Nat) : Bool := w.getLsbD (31 - i)

/-- A status word with bit i set to v. -/
def setStBit (w : Word) (i : Nat) (v : Bool) : Word :=
  if v then w ||| (1#32 <<< (31 - i)) else w &&& ~~~(1#32 <<< (31 - i))

/-- Bit number of X, the execution level: set at user level (R20). -/
def stX : Nat := 1

/-- Bit number of C, code translation (R20). -/
def stC : Nat := 2

/-- Bit number of CB, carry or borrow (R20, R21). -/
def stCb : Nat := 12

/-- Bit number of D, data translation (R20). -/
def stD : Nat := 29

/-- Bit number of P, protection id check (R20). -/
def stP : Nat := 30

/-- Bit number of E, external interrupt enable (R20). -/
def stE : Nat := 31

/-- ST.X: user level. `PL = ST.X` (60_exceptions.md R294). -/
def State.xBit (s : State) : Bool := stBit s.st stX

/-- ST.C. -/
def State.cBit (s : State) : Bool := stBit s.st stC

/-- ST.CB. -/
def State.cbBit (s : State) : Bool := stBit s.st stCb

/-- ST.D. -/
def State.dBit (s : State) : Bool := stBit s.st stD

/-- ST.P. -/
def State.pBit (s : State) : Bool := stBit s.st stP

/-- ST.E. -/
def State.eBit (s : State) : Bool := stBit s.st stE

/-- The privilege level as a number: 0 privileged, 1 user (60_exceptions.md R294). -/
def State.level (s : State) : Nat := s.xBit.toNat

/-- The state with ST replaced. -/
def State.setSt (s : State) (w : Word) : State := { s with st := w }

/-- The state with one bit of ST replaced. -/
def State.setStatusBit (s : State) (i : Nat) (v : Bool) : State := s.setSt (setStBit s.st i v)

/-- An exact sum or difference with what the flags say of it (43_computational.md R195). -/
structure ArithResult where
  /-- The low 32 bits. -/
  value : Word
  /-- The carry out of an addition, the borrow of a subtraction: the unsigned result does not fit. -/
  carry : Bool
  /-- The signed result does not fit. -/
  overflow : Bool
  deriving DecidableEq, Repr

/-- The result of which `u` is the exact value on unsigned and `i` on signed operands. -/
def arithResult (u i : Int) : ArithResult where
  value := BitVec.ofInt 32 u
  carry := decide (u < 0 ∨ (2 ^ 32 : Int) ≤ u)
  overflow := decide (i < -(2 ^ 31 : Int) ∨ (2 ^ 31 : Int) ≤ i)

/-- a + b + c (43_computational.md R195). -/
def addExact (a b : Word) (c : Bool) : ArithResult :=
  arithResult ((a.toNat : Int) + b.toNat + c.toNat) (a.toInt + b.toInt + c.toNat)

/-- a - b - c (43_computational.md R195). -/
def subExact (a b : Word) (c : Bool) : ArithResult :=
  arithResult ((a.toNat : Int) - b.toNat - c.toNat) (a.toInt - b.toInt - c.toNat)

/-- The borrow that ST.CB stands for, and ST.CB for a borrow (43_computational.md R193, R194, SUBC_FORMULA). -/
def borrowFlag (v : Bool) : Bool :=
  match Config.subcFormula with
  | .borrow => v
  | .carry => !v

end Sys2Proof.Machine
end

