-- ==== Sys2Proof/Machine/Registers.lean ====
section
/-! DEFINITION. Reading and writing the registers of 10_state.md: each register has one home in `State` and is
reached through these operations only. -/

namespace Sys2Proof.Machine

/-- GR[r]; GR0 reads as zero (10_state.md R11). -/
def State.readGr (s : State) (r : GReg) : Word := if r = 0#4 then 0#32 else s.gr[r.toNat]'r.isLt

/-- GR[r] ← v; a write to GR0 has no effect (10_state.md R11). -/
def State.writeGr (s : State) (r : GReg) (v : Word) : State :=
  { s with gr := if r = 0#4 then s.gr else s.gr.set r.toNat v r.isLt }

/-- A segment id: the rightmost SEG_BITS bits of a word (10_state.md R13). -/
def truncSeg (v : Word) : Word := BitVec.ofNat 32 (v.toNat % 2 ^ Config.segBits)

/-- SR[r] (10_state.md R13). -/
def State.readSr (s : State) (r : SReg) : Word := s.sr[r.toNat]'r.isLt

/-- SR[r] ← v, SEG_BITS wide (10_state.md R13). -/
def State.writeSr (s : State) (r : SReg) (v : Word) : State :=
  { s with sr := s.sr.set r.toNat (truncSeg v) r.isLt }

/-- What a control register keeps of a word: SHAMT five bits (10_state.md R28), I-IA-SEG a segment id (R34), every
other register all of it (44_system_control.md R222). -/
def crKeep (c : CReg) (v : Word) : Word :=
  if c = 2#5 then v &&& 0x1F#32 else if c = 18#5 then truncSeg v else v

/-- CR[c] (10_state.md R25 to R39). -/
def State.readCr (s : State) (c : CReg) : Word := crKeep c (s.cr[c.toNat]'c.isLt)

/-- CR[c] ← v (44_system_control.md R222). -/
def State.writeCr (s : State) (c : CReg) (v : Word) : State :=
  { s with cr := s.cr.set c.toNat (crKeep c v) c.isLt }

/-- CR[c] ← v where there is a v, else unchanged. -/
def State.writeCrOpt (s : State) (c : CReg) (v : Option Word) : State :=
  { s with cr := match v with
      | some w => s.cr.set c.toNat (crKeep c w) c.isLt
      | none => s.cr }

/-- SHAMT as a shift amount (10_state.md R28). -/
def State.shamt (s : State) : Nat := (s.readCr 2#5).toNat

/-- IA-SEG ← v, SEG_BITS wide (10_state.md R15). -/
def State.setIaSeg (s : State) (v : Word) : State := { s with iaSeg := truncSeg v }

/-- IA-OFS ← v without its two rightmost bits (10_state.md R16). -/
def State.setIaOfs (s : State) (v : Word) : State := { s with iaOfs := v &&& 0xFFFFFFFC#32 }

/-- The next instruction in the same segment (10_state.md R17). -/
def State.advance (s : State) : State := s.setIaOfs (s.iaOfs + 4#32)

/-- segSelect: the segment register a logical address selects, SR4 to SR7 by its two leftmost bits
(20_memory.md R64). -/
def segSelect (x : Word) : SReg := 4#3 + (x.extractLsb' 30 2).setWidth 3

/-- The segment id of a logical address (20_memory.md R64). -/
def State.logicalSeg (s : State) (x : Word) : Word := s.readSr (segSelect x)

/-- extSeg: the segment id of an extended access (40_memory_reference.md R144). -/
def State.extSeg (s : State) (seg : BitVec 2) (x : Word) : Word :=
  if seg = 0#2 then s.logicalSeg x else s.readSr (seg.setWidth 3)

end Sys2Proof.Machine
end

