-- ==== Sys2Proof/Machine/Tlb.lean ====
section
/-! DEFINITION. The translation look-aside buffers and the checks an access passes (20_memory.md R70 to R79). -/

namespace Sys2Proof.Machine

/-- Which TLB: the T bit of ITLB, PTLB and PCA (44_system_control.md R226 to R228). -/
inductive TlbSide where
  | instr
  | data
  deriving DecidableEq, Repr

/-- The side a T bit names. -/
def tlbSide (t : Bool) : TlbSide := if t then .data else .instr

/-- The kinds of data access. -/
inductive Access where
  | read
  | write
  deriving DecidableEq, Repr

/-- The virtual page number of an offset (20_memory.md R65). -/
def vpnOf (ofs : Word) : BitVec (32 - Config.pageBits) := ofs.extractLsb' Config.pageBits (32 - Config.pageBits)

/-- A page's address with the page offset of `ofs` (20_memory.md R62). -/
def pageAddr (ppn : BitVec (32 - Config.pageBits)) (ofs : Word) : Word :=
  (ppn.setWidth 32 <<< Config.pageBits) ||| (ofs.extractLsb' 0 Config.pageBits).setWidth 32

/-- A tag as one number. -/
def tlbKey (seg : Word) (vpn : BitVec (32 - Config.pageBits)) : Nat :=
  seg.toNat * 2 ^ (32 - Config.pageBits) + vpn.toNat

/-- The tag of an entry as one number. -/
def entryKey (e : TlbEntry) : Nat := tlbKey e.seg e.vpn

/-- The entries of one TLB; with the option joint, of the one that serves as both (20_memory.md R75). -/
def State.tlb (s : State) (side : TlbSide) : List TlbEntry :=
  if Config.tlbJoint then s.dtlb
  else match side with
    | .instr => s.itlb
    | .data => s.dtlb

/-- The state with the entries of one TLB replaced. -/
def State.setTlb (s : State) (side : TlbSide) (l : List TlbEntry) : State :=
  { s with
    itlb := if Config.tlbJoint = false ∧ side = .instr then l else s.itlb
    dtlb := if Config.tlbJoint = true ∨ side = .data then l else s.dtlb }

/-- The entry with a tag, valid or not. -/
def State.tlbFind (s : State) (side : TlbSide) (seg ofs : Word) : Option TlbEntry :=
  sortedFind entryKey (tlbKey seg (vpnOf ofs)) (s.tlb side)

/-- tlbLookup: the valid entry with a tag (20_memory.md R76). -/
def State.tlbLookup (s : State) (side : TlbSide) (seg ofs : Word) : Option TlbEntry :=
  (s.tlbFind side seg ofs).filter (fun e => e.v)

/-- Room for one more entry: with a bounded TLB that is full, an arbitrary entry is removed
(20_memory.md R75). -/
def State.tlbMakeRoom (s : State) (side : TlbSide) : State :=
  match Config.tlbEntries with
  | none => s
  | some n =>
    let l := s.tlb side
    if l.length < n then s
    else { (s.setTlb side (l.eraseIdx (Config.freeChoice s.freeCount % l.length))) with
           freeCount := s.freeCount + 1 }

/-- An entry whose address part alone is to be filled. Its other fields cannot be seen before ITLB.P sets them. -/
def freshEntry (seg : Word) (vpn : BitVec (32 - Config.pageBits)) : TlbEntry where
  seg := seg
  vpn := vpn
  v := false
  t := false
  d := false
  b := false
  x := false
  ar := 0#4
  pid := 0#15
  ppn := 0#(32 - Config.pageBits)

/-- tlbInsertAddr (20_memory.md R77): the entry of the page is allocated if absent, marked not valid, and gets the
physical page number of the physical address w. -/
def State.tlbInsertAddr (s : State) (side : TlbSide) (seg ofs w : Word) : State :=
  match s.tlbFind side seg ofs with
  | some e =>
    s.setTlb side (sortedInsert entryKey { e with v := false, ppn := fld w 0 (32 - Config.pageBits) } (s.tlb side))
  | none =>
    let s' := s.tlbMakeRoom side
    s'.setTlb side
      (sortedInsert entryKey { freshEntry seg (vpnOf ofs) with ppn := fld w 0 (32 - Config.pageBits) } (s'.tlb side))

/-- tlbInsertProt (20_memory.md R77, TLB_ARG_LAYOUT): the protection part of the entry of the page, which becomes
valid; no effect if there is no entry. -/
def State.tlbInsertProt (s : State) (side : TlbSide) (seg ofs w : Word) : State :=
  match s.tlbFind side seg ofs with
  | some e =>
    s.setTlb side (sortedInsert entryKey
      { e with t := bit w 1, d := bit w 2, b := bit w 3, x := bit w 4, ar := fld w 12 4, pid := fld w 16 15,
               v := true }
      (s.tlb side))
  | none => s

/-- tlbPurge (20_memory.md R78). -/
def State.tlbPurge (s : State) (side : TlbSide) (seg ofs : Word) : State :=
  s.setTlb side (sortedErase entryKey (tlbKey seg (vpnOf ofs)) (s.tlb side))

/-- AR[0:1], the page type: 0 read-only, 1 read-write, 2 execute, 3 gateway (20_memory.md R70). -/
def pageType (ar : BitVec 4) : Nat := (ar.extractLsb' 2 2).toNat

/-- AR[2], PL1 (20_memory.md R70). -/
def arPl1 (ar : BitVec 4) : Nat := (ar.getLsbD 1).toNat

/-- AR[3], PL2 (20_memory.md R70). -/
def arPl2 (ar : BitVec 4) : Nat := (ar.getLsbD 0).toNat

/-- accessAllowed (20_memory.md R71). -/
def accessAllowed (kind : Access) (ar : BitVec 4) (level : Nat) : Bool :=
  match kind with
  | .read => decide (pageType ar ≠ 3 ∧ level ≤ arPl1 ar)
  | .write => decide (pageType ar = 1 ∧ level ≤ arPl2 ar)

/-- Whether one protection id register lets an access to a page through (20_memory.md R72, PID_LAYOUT). -/
def pidMatches (kind : Access) (pid : BitVec 15) (reg : Word) : Bool :=
  fld reg Config.pidIdBit 15 == pid && (kind == .read || !bit reg Config.pidWriteBit)

/-- pidAllowed (20_memory.md R72): one of PID-0 to PID-3 matches. -/
def State.pidAllowed (s : State) (kind : Access) (pid : BitVec 15) : Bool :=
  pidMatches kind pid (s.readCr 8#5) || pidMatches kind pid (s.readCr 9#5) ||
    pidMatches kind pid (s.readCr 10#5) || pidMatches kind pid (s.readCr 11#5)

end Sys2Proof.Machine
end

