-- ==== Sys2Proof/Machine/Ops.lean ====
section
/-! DEFINITION. The operations the meanings share: traps (60_exceptions.md R275 to R279, R290) and the accesses to
memory (20_memory.md R57 to R62, R85, R86). -/

namespace Sys2Proof.Machine

/-- A trap with its parameters; `none` is the "-" of the trap table (60_exceptions.md R271, R279). -/
structure Trap where
  id : TrapId
  p0 : Option Word
  p1 : Option Word
  p2 : Option Word
  deriving DecidableEq, Repr

/-- Why an operation does not complete. -/
inductive Stop where
  /-- It raises a trap: the machine goes on at the handler. -/
  | trap (t : Trap)
  /-- The machine stops with a fault. -/
  | fault (f : Fault)
  /-- The machine stops without a meaning. -/
  | refuse (r : Refusal)
  deriving DecidableEq, Repr

/-- The number of a trap in the table (60_exceptions.md R271). -/
def trapNumber : TrapId → Nat
  | .machineCheck => 1
  | .powerFailure => 2
  | .recoveryCounter => 3
  | .externalInterrupt => 4
  | .illegalInstruction => 5
  | .privilegedOperation => 6
  | .privilegedRegister => 7
  | .overflow => 8
  | .instrTlbMiss => 9
  | .nonAccessInstrTlbMiss => 10
  | .instrProtection => 11
  | .dataTlbMiss => 12
  | .nonAccessDataTlbMiss => 13
  | .dataAccessRights => 14
  | .dataProtection => 15
  | .pageReference => 16
  | .alignment => 17
  | .breakInstr => 18
  | .reserved k => 19 + k.val

/-- The physical address of the handler of a trap (60_exceptions.md R276). -/
def State.trapVector (s : State) (id : TrapId) : Word := s.readCr 16#5 + BitVec.ofNat 32 (32 * trapNumber id)

/-- Taking a trap (60_exceptions.md R275, R277, R279): ST, IA-SEG and IA-OFS are saved in CR17, CR18 and CR19, the
parameters that are present in CR20, CR21 and CR22; ST and IA-SEG become zero; IA-OFS is the handler's address. -/
def State.takeTrap (s : State) (t : Trap) : State :=
  (((((((((s.writeCr 17#5 s.st).writeCr 18#5 s.iaSeg).writeCr 19#5 s.iaOfs).writeCrOpt 20#5
    t.p0).writeCrOpt 21#5 t.p1).writeCrOpt 22#5 t.p2).setSt 0#32).setIaSeg 0#32).setIaOfs (s.trapVector t.id))

/-- Returning from a trap (44_system_control.md R236, 60_exceptions.md R290). -/
def State.returnFromTrap (s : State) : State :=
  ((s.setIaSeg (s.readCr 18#5)).setIaOfs (s.readCr 19#5)).setSt (s.readCr 17#5)

/-- The state that knows the word it runs, as fetched. With RESERVED_NONZERO = refuse that is the word `encode` gives
for the instruction, and nothing is kept (log 5). -/
def State.recordFetch (s : State) (w : Word) : State :=
  match Config.reservedNonzero with
  | .refuse => s
  | .ignore => { s with fetched := w }

/-- The word a trap of the instruction reports: the word as fetched, its reserved fields too (30_encoding.md R128,
60_exceptions.md R279). -/
def State.instrWord (s : State) (i : Instr) : Word :=
  match Config.reservedNonzero with
  | .refuse => encode i
  | .ignore => s.fetched

/-- Raising a trap without parameters. -/
def raise {α : Type} (id : TrapId) : Except Stop α :=
  .error (.trap { id := id, p0 := none, p1 := none, p2 := none })

/-- Raising a trap whose one parameter is the instruction word. -/
def raiseInstr {α : Type} (id : TrapId) (instr : Word) : Except Stop α :=
  .error (.trap { id := id, p0 := some instr, p1 := none, p2 := none })

/-- Raising a trap with the instruction word, a segment id and an offset (60_exceptions.md R282). -/
def raiseData {α : Type} (id : TrapId) (instr seg ofs : Word) : Except Stop α :=
  .error (.trap { id := id, p0 := some instr, p1 := some seg, p2 := some ofs })

/-- The outcome of an instruction whose operations gave `r`: a trap is taken in the state `s` the instruction
started in, so that none of its effects has happened (60_exceptions.md R275). -/
def conclude (s : State) (r : Except Stop State) : Host.Outcome State Fault Refusal :=
  match r with
  | .ok t => .next t
  | .error (.trap t) => .next (s.takeTrap t)
  | .error (.fault f) => .fault f
  | .error (.refuse f) => .refused f

/-- A privileged instruction: trap 6 at user level (60_exceptions.md R274). -/
def privileged (s : State) (instr : Word) (r : Except Stop State) : Except Stop State :=
  if s.xBit then raiseInstr .privilegedOperation instr else r

/-- The regions of the physical address space (20_memory.md R57). -/
inductive Region where
  /-- Populated RAM. -/
  | ram
  /-- The unpopulated part of the RAM range. -/
  | unpopulated
  /-- Processor dependent code, the platform's. -/
  | pdc
  /-- Between the PDC region and the IO window. -/
  | unassigned
  /-- IO memory, the platform's. -/
  | io
  deriving DecidableEq, Repr

/-- The region of a physical address (20_memory.md R55, R57). -/
def regionOf (paddr : Word) : Region :=
  if paddr.toNat < Config.memSize then .ram
  else if paddr.toNat < 0xF0000000 then .unpopulated
  else if paddr.toNat < 0xF1000000 then .pdc
  else if paddr.toNat < 0xFF000000 then .unassigned
  else .io

/-- Why a read with nothing behind it stops (20_memory.md R57, decision D31): the IO window belongs to devices, any
other place is empty. -/
def readStop (paddr : Word) : Stop :=
  if regionOf paddr = .io then .refuse (.ioAccess paddr) else .fault (.unmapped paddr)

/-- Why a write with nothing behind it stops (20_memory.md R57, decision D31): as a read, and the PDC region belongs
to the platform. -/
def writeStop (paddr : Word) : Stop :=
  if regionOf paddr = .pdc then .refuse (.pdcWrite paddr) else readStop paddr

/-- An access with nothing behind it: it stops, or, with UNMAPPED = readZeroWriteIgnore, gives `ignored`
(20_memory.md R57, decision D31). -/
def unmappedAccess {α : Type} (stop : Stop) (ignored : α) : Except Stop α :=
  match Config.unmapped with
  | .refuse => .error stop
  | .readZeroWriteIgnore => .ok ignored

/-- The rightmost bytes of a value, zero-extended (20_memory.md R52). -/
def narrow (w : Width) (v : Word) : Word :=
  match w with
  | .byte => v &&& 0xFF#32
  | .half => v &&& 0xFFFF#32
  | .word => v

/-- A read that the platform answers (20_memory.md R57, 60_exceptions.md R301). -/
def platformRead (paddr : Word) (w : Width) : Except Stop Word :=
  match Config.platform paddr (.read w) with
  | .done v => .ok (narrow w v)
  | .nothing => unmappedAccess (readStop paddr) 0#32

/-- The platform has placed code at a physical address of the PDC region (20_memory.md R57). -/
def State.pdcPlaced (s : State) (paddr : Word) : Bool := s.pdcWords.contains (paddr.toNat / 4)

/-- PhysRead (20_memory.md R57, R58). -/
def State.physRead (s : State) (paddr : Word) (w : Width) : Except Stop Word :=
  match regionOf paddr with
  | .ram => .ok (s.mem.read paddr.toNat w)
  | .unpopulated => unmappedAccess (readStop paddr) 0#32
  | .pdc => if s.pdcPlaced paddr then .ok (s.mem.read paddr.toNat w) else platformRead paddr w
  | .unassigned => platformRead paddr w
  | .io => platformRead paddr w

/-- Whether the written bytes overlap the reserved word (20_memory.md R59, R86). -/
def State.breaksReservation (s : State) (paddr : Word) (w : Width) : Bool :=
  decide (paddr.toNat < s.lrAddr.toNat + 4 ∧ s.lrAddr.toNat < paddr.toNat + accessBytes w)

/-- The bytes of a store in place: memory, what the caches note, and the reservation (20_memory.md R59). -/
def State.storeBytes (s : State) (paddr : Word) (w : Width) (v : Word) : State :=
  { s.noteStore paddr with
    mem := s.mem.write paddr.toNat v w
    lrValid := s.lrValid && !s.breaksReservation paddr w }

/-- A write that leaves memory alone, the platform's or an ignored one: the reservation (20_memory.md R59). -/
def State.wroteElsewhere (s : State) (paddr : Word) (w : Width) : State :=
  { s with lrValid := s.lrValid && !s.breaksReservation paddr w }

/-- A write that the platform answers (20_memory.md R57, 60_exceptions.md R301). -/
def State.platformWrite (s : State) (paddr : Word) (w : Width) (v : Word) : Except Stop State :=
  match Config.platform paddr (.write w (narrow w v)) with
  | .done _ => .ok (s.wroteElsewhere paddr w)
  | .nothing => unmappedAccess (writeStop paddr) (s.wroteElsewhere paddr w)

/-- PhysWrite (20_memory.md R57, R59). The platform's PDC image is read-only: a write there is the platform's. -/
def State.physWrite (s : State) (paddr : Word) (w : Width) (v : Word) : Except Stop State :=
  match regionOf paddr with
  | .ram => .ok (s.storeBytes paddr w v)
  | .unpopulated => unmappedAccess (writeStop paddr) (s.wroteElsewhere paddr w)
  | .pdc => s.platformWrite paddr w v
  | .unassigned => s.platformWrite paddr w v
  | .io => s.platformWrite paddr w v

/-- Segment zero is not translated and not checked (20_memory.md R67, SEG0_BYPASS). -/
def bypasses (seg : Word) : Bool := decide (seg = 0#32) && Config.seg0Bypass

/-- The checks of a data access on a DTLB entry, in their order (20_memory.md R62). -/
def State.checkEntry (s : State) (kind : Access) (e : TlbEntry) (instr seg ofs : Word) : Except Stop Word :=
  if accessAllowed kind e.ar s.level = false then raiseData .dataAccessRights instr seg ofs
  else if s.pBit = true ∧ s.pidAllowed kind e.pid = false then raiseData .dataProtection instr seg ofs
  else if e.t then raiseData .pageReference instr seg ofs
  else if kind = .write ∧ e.d = true then raiseData Config.trapIdDirty instr seg ofs
  else if e.b then raiseData Config.trapIdDataRef instr seg ofs
  else .ok (pageAddr e.ppn ofs)

/-- DataTranslate (20_memory.md R62). -/
def State.dataTranslate (s : State) (kind : Access) (instr seg ofs : Word) : Except Stop Word :=
  if s.dBit = false then .ok ofs
  else if bypasses seg then .ok ofs
  else match s.tlbLookup .data seg ofs with
    | none => raiseData .dataTlbMiss instr seg ofs
    | some e => s.checkEntry kind e instr seg ofs

/-- The segment id a data access uses: zero with data translation off (20_memory.md R60, R66). -/
def State.effSeg (s : State) (seg : Word) : Word := if s.dBit then seg else 0#32

/-- An offset is a multiple of the width (20_memory.md R53). -/
def aligned (ofs : Word) (w : Width) : Bool := decide (ofs.toNat % accessBytes w = 0)

/-- The physical address of a data access: alignment, then translation (20_memory.md R60, R61). -/
def State.dataAddr (s : State) (kind : Access) (instr seg ofs : Word) (w : Width) : Except Stop Word :=
  if aligned ofs w then s.dataTranslate kind instr (s.effSeg seg) ofs
  else raiseData .alignment instr (s.effSeg seg) ofs

/-- MemRead (20_memory.md R60). -/
def State.memRead (s : State) (instr seg ofs : Word) (w : Width) : Except Stop Word :=
  match s.dataAddr .read instr seg ofs w with
  | .ok paddr => s.physRead paddr w
  | .error e => .error e

/-- MemWrite (20_memory.md R61). -/
def State.memWrite (s : State) (instr seg ofs : Word) (w : Width) (v : Word) : Except Stop State :=
  match s.dataAddr .write instr seg ofs w with
  | .ok paddr => s.physWrite paddr w v
  | .error e => .error e

/-- The width a dw field selects; 3 is reserved (20_memory.md R52). -/
def widthOf (dw : BitVec 2) : Option Width :=
  match dw with
  | 0#2 => some .byte
  | 1#2 => some .half
  | 2#2 => some .word
  | _ => none

end Sys2Proof.Machine
end

