-- ==== Sys2Proof/Machine/Operands.lean ====
section
/-! DEFINITION. The operand forms: the four modes of the computational instructions (30_encoding.md R102, R103) and
the effective address with base register modification (40_memory_reference.md R141, R152). -/

namespace Sys2Proof.Machine

/-- The second operand of a computational instruction, by operand mode (30_encoding.md R103). -/
inductive Operand where
  /-- Mode 0: an 18-bit low-sign immediate. -/
  | imm (val : BitVec 18)
  /-- Mode 1: two registers. -/
  | reg (a b : GReg)
  /-- Mode 2: the memory operand a(b). -/
  | idx (dw : BitVec 2) (a b : GReg)
  /-- Mode 3: the memory operand ofs(b). -/
  | ofs (dw : BitVec 2) (disp : BitVec 12) (b : GReg)
  deriving DecidableEq, Repr

/-- The memory operand at a logical address; dw = 3 is trap 5 (30_encoding.md R103, R123). -/
def State.memOperand (s : State) (instr : Word) (dw : BitVec 2) (x : Word) : Except Stop Word :=
  match widthOf dw with
  | some w => s.memRead instr (s.logicalSeg x) x w
  | none => raiseInstr .illegalInstruction instr

/-- operand(instr): tmpA and tmpB (30_encoding.md R103). -/
def State.operand (s : State) (instr : Word) (r : GReg) : Operand → Except Stop (Word × Word)
  | .imm val => .ok (s.readGr r, lse val)
  | .reg a b => .ok (s.readGr a, s.readGr b)
  | .idx dw a b =>
    match s.memOperand instr dw (s.readGr b + s.readGr a) with
    | .ok v => .ok (s.readGr r, v)
    | .error e => .error e
  | .ofs dw disp b =>
    match s.memOperand instr dw (s.readGr b + lse disp) with
    | .ok v => .ok (s.readGr r, v)
    | .error e => .error e

/-- What an addressing form gives: the offset of the access, and the base register's new value if it has one. -/
structure EffAddr where
  ofs : Word
  newBase : Option Word
  deriving DecidableEq, Repr

/-- ea(M, base, disp) (40_memory_reference.md R141): with M a negative displacement modifies before the access, any
other after it. -/
def effAddr (m : Bool) (base disp : Word) : EffAddr :=
  if m = false then { ofs := base + disp, newBase := none }
  else if disp.toInt < 0 then { ofs := base + disp, newBase := some (base + disp) }
  else { ofs := base, newBase := some (base + disp) }

/-- The base register's new value, where there is one, written (40_memory_reference.md R141). -/
def State.writeBase (s : State) (b : GReg) (v : Option Word) : State :=
  { s with gr := match v with
      | some w => (s.writeGr b w).gr
      | none => s.gr }

end Sys2Proof.Machine
end

