-- ==== Sys2Proof/Machine/Immediate.lean ====
section
/-! DEFINITION. LDIL, ADDIL, LDO (41_immediate.md R161 to R163). -/

namespace Sys2Proof.Machine

/-- The instruction ends with a result in GR[r] and goes on to the next one (10_state.md R17). -/
def State.result (s : State) (r : GReg) (v : Word) : State := (s.writeGr r v).advance

/-- A 22-bit value in the left part of a word (41_immediate.md R160). -/
def leftPart (val22 : BitVec 22) : Word := val22.setWidth 32 <<< 10

/-- LDIL (41_immediate.md R161). -/
def execLdil (r : GReg) (val22 : BitVec 22) (s : State) : Host.Outcome State Fault Refusal :=
  .next (s.result r (leftPart val22))

/-- ADDIL (41_immediate.md R162); the target is GR1. -/
def execAddil (r : GReg) (val22 : BitVec 22) (s : State) : Host.Outcome State Fault Refusal :=
  .next (s.result 1#4 (s.readGr r + leftPart val22))

/-- LDO, mode 0 (41_immediate.md R163). -/
def execLdoImm (r : GReg) (val : BitVec 18) (s : State) : Host.Outcome State Fault Refusal :=
  .next (s.result r (lse val))

/-- LDO, mode 2 (41_immediate.md R163): dw is not examined. -/
def execLdoIdx (r : GReg) (_dw : BitVec 2) (a b : GReg) (s : State) : Host.Outcome State Fault Refusal :=
  .next (s.result r (s.readGr b + s.readGr a))

/-- LDO, mode 3 (41_immediate.md R163): dw is not examined. -/
def execLdoOfs (r : GReg) (_dw : BitVec 2) (ofs : BitVec 12) (b : GReg) (s : State) : Host.Outcome State Fault Refusal :=
  .next (s.result r (s.readGr b + lse ofs))

end Sys2Proof.Machine
end

