-- ==== Sys2Proof/Machine/Absolute.lean ====
section
/-! DEFINITION. LDWA, LDWAX, STWA (40_memory_reference.md R147, R148). -/

namespace Sys2Proof.Machine

/-- A word load from a physical address (40_memory_reference.md R147). -/
def loadAbsolute (instr : Word) (r : GReg) (m : Bool) (b : GReg) (disp : Word) (s : State) : Except Stop State :=
  let ea := effAddr m (s.readGr b) disp
  if aligned ea.ofs .word then
    match s.physRead ea.ofs .word with
    | .ok v => .ok ((s.writeBase b ea.newBase).result r v)
    | .error e => .error e
  else raiseData .alignment instr 0#32 ea.ofs

/-- A word store to a physical address (40_memory_reference.md R148). -/
def storeAbsolute (instr : Word) (r : GReg) (m : Bool) (b : GReg) (disp : Word) (s : State) : Except Stop State :=
  let ea := effAddr m (s.readGr b) disp
  if aligned ea.ofs .word then
    match s.physWrite ea.ofs .word (s.readGr r) with
    | .ok t => .ok ((t.writeBase b ea.newBase).advance)
    | .error e => .error e
  else raiseData .alignment instr 0#32 ea.ofs

/-- LDWA (40_memory_reference.md R147). -/
def execLdwa (r : GReg) (m : Bool) (ofs16 : BitVec 16) (b : GReg) (s : State) : Host.Outcome State Fault Refusal :=
  conclude s (privileged s (s.instrWord (.ldwa r m ofs16 b)) (loadAbsolute (s.instrWord (.ldwa r m ofs16 b)) r m b (lse ofs16) s))

/-- LDWAX (40_memory_reference.md R147). -/
def execLdwax (r : GReg) (m : Bool) (a b : GReg) (s : State) : Host.Outcome State Fault Refusal :=
  conclude s (privileged s (s.instrWord (.ldwax r m a b)) (loadAbsolute (s.instrWord (.ldwax r m a b)) r m b (s.readGr a) s))

/-- STWA (40_memory_reference.md R148). -/
def execStwa (r : GReg) (m : Bool) (ofs16 : BitVec 16) (b : GReg) (s : State) : Host.Outcome State Fault Refusal :=
  conclude s (privileged s (s.instrWord (.stwa r m ofs16 b)) (storeAbsolute (s.instrWord (.stwa r m ofs16 b)) r m b (lse ofs16) s))

end Sys2Proof.Machine
end

