-- ==== Sys2Proof/Machine/Arithmetic.lean ====
section
/-! DEFINITION. ADD, ADDC, SUB, SUBC, SHLA (43_computational.md R190 to R195, R213). -/

namespace Sys2Proof.Machine

/-- ADD, ADDC, SUB, SUBC (43_computational.md R191 to R194): `op` is the exact arithmetic, `flag` turns its carry or
borrow into ST.CB and back, `carryIn` says whether ST.CB takes part. With L the unsigned overflow is tested and ST.CB
kept; with O an overflow is trap 8. -/
def arith (op : Word → Word → Bool → ArithResult) (flag : Bool → Bool) (carryIn : Bool) (instr : Word) (r : GReg)
    (o l : Bool) (x : Operand) (s : State) : Except Stop State :=
  match s.operand instr r x with
  | .error e => .error e
  | .ok (a, b) =>
    let res := op a b (carryIn && flag s.cbBit)
    if o && (if l then res.carry else res.overflow) then raiseInstr .overflow instr
    else .ok ((if l then s else s.setStatusBit stCb (flag res.carry)).result r res.value)

/-- ADD, mode 0 (43_computational.md R191). -/
def execAddImm (r : GReg) (o l : Bool) (val : BitVec 18) (s : State) : Host.Outcome State Fault Refusal :=
  conclude s (arith addExact id false (s.instrWord (.addImm r o l val)) r o l (.imm val) s)

/-- ADD, mode 1 (43_computational.md R191). -/
def execAddReg (r : GReg) (o l : Bool) (a b : GReg) (s : State) : Host.Outcome State Fault Refusal :=
  conclude s (arith addExact id false (s.instrWord (.addReg r o l a b)) r o l (.reg a b) s)

/-- ADD, mode 2 (43_computational.md R191). -/
def execAddIdx (r : GReg) (o l : Bool) (dw : BitVec 2) (a b : GReg) (s : State) : Host.Outcome State Fault Refusal :=
  conclude s (arith addExact id false (s.instrWord (.addIdx r o l dw a b)) r o l (.idx dw a b) s)

/-- ADD, mode 3 (43_computational.md R191). -/
def execAddOfs (r : GReg) (o l : Bool) (dw : BitVec 2) (ofs : BitVec 12) (b : GReg) (s : State) : Host.Outcome State Fault Refusal :=
  conclude s (arith addExact id false (s.instrWord (.addOfs r o l dw ofs b)) r o l (.ofs dw ofs b) s)

/-- ADDC, mode 0 (43_computational.md R192). -/
def execAddcImm (r : GReg) (o l : Bool) (val : BitVec 18) (s : State) : Host.Outcome State Fault Refusal :=
  conclude s (arith addExact id true (s.instrWord (.addcImm r o l val)) r o l (.imm val) s)

/-- ADDC, mode 1 (43_computational.md R192). -/
def execAddcReg (r : GReg) (o l : Bool) (a b : GReg) (s : State) : Host.Outcome State Fault Refusal :=
  conclude s (arith addExact id true (s.instrWord (.addcReg r o l a b)) r o l (.reg a b) s)

/-- ADDC, mode 2 (43_computational.md R192). -/
def execAddcIdx (r : GReg) (o l : Bool) (dw : BitVec 2) (a b : GReg) (s : State) : Host.Outcome State Fault Refusal :=
  conclude s (arith addExact id true (s.instrWord (.addcIdx r o l dw a b)) r o l (.idx dw a b) s)

/-- ADDC, mode 3 (43_computational.md R192). -/
def execAddcOfs (r : GReg) (o l : Bool) (dw : BitVec 2) (ofs : BitVec 12) (b : GReg) (s : State) : Host.Outcome State Fault Refusal :=
  conclude s (arith addExact id true (s.instrWord (.addcOfs r o l dw ofs b)) r o l (.ofs dw ofs b) s)

/-- SUB, mode 0 (43_computational.md R193). -/
def execSubImm (r : GReg) (o l : Bool) (val : BitVec 18) (s : State) : Host.Outcome State Fault Refusal :=
  conclude s (arith subExact borrowFlag false (s.instrWord (.subImm r o l val)) r o l (.imm val) s)

/-- SUB, mode 1 (43_computational.md R193). -/
def execSubReg (r : GReg) (o l : Bool) (a b : GReg) (s : State) : Host.Outcome State Fault Refusal :=
  conclude s (arith subExact borrowFlag false (s.instrWord (.subReg r o l a b)) r o l (.reg a b) s)

/-- SUB, mode 2 (43_computational.md R193). -/
def execSubIdx (r : GReg) (o l : Bool) (dw : BitVec 2) (a b : GReg) (s : State) : Host.Outcome State Fault Refusal :=
  conclude s (arith subExact borrowFlag false (s.instrWord (.subIdx r o l dw a b)) r o l (.idx dw a b) s)

/-- SUB, mode 3 (43_computational.md R193). -/
def execSubOfs (r : GReg) (o l : Bool) (dw : BitVec 2) (ofs : BitVec 12) (b : GReg) (s : State) : Host.Outcome State Fault Refusal :=
  conclude s (arith subExact borrowFlag false (s.instrWord (.subOfs r o l dw ofs b)) r o l (.ofs dw ofs b) s)

/-- SUBC, mode 0 (43_computational.md R194). -/
def execSubcImm (r : GReg) (o l : Bool) (val : BitVec 18) (s : State) : Host.Outcome State Fault Refusal :=
  conclude s (arith subExact borrowFlag true (s.instrWord (.subcImm r o l val)) r o l (.imm val) s)

/-- SUBC, mode 1 (43_computational.md R194). -/
def execSubcReg (r : GReg) (o l : Bool) (a b : GReg) (s : State) : Host.Outcome State Fault Refusal :=
  conclude s (arith subExact borrowFlag true (s.instrWord (.subcReg r o l a b)) r o l (.reg a b) s)

/-- SUBC, mode 2 (43_computational.md R194). -/
def execSubcIdx (r : GReg) (o l : Bool) (dw : BitVec 2) (a b : GReg) (s : State) : Host.Outcome State Fault Refusal :=
  conclude s (arith subExact borrowFlag true (s.instrWord (.subcIdx r o l dw a b)) r o l (.idx dw a b) s)

/-- SUBC, mode 3 (43_computational.md R194). -/
def execSubcOfs (r : GReg) (o l : Bool) (dw : BitVec 2) (ofs : BitVec 12) (b : GReg) (s : State) : Host.Outcome State Fault Refusal :=
  conclude s (arith subExact borrowFlag true (s.instrWord (.subcOfs r o l dw ofs b)) r o l (.ofs dw ofs b) s)

/-- SHLA: the shift or the addition leaves the signed (L = 0) or unsigned (L = 1) range (43_computational.md R213). -/
def shlaOverflow (l : Bool) (sa : BitVec 2) (a b : Word) : Bool :=
  let sum := addExact (a <<< sa.toNat) b false
  if l then decide (2 ^ 32 ≤ a.toNat * 2 ^ sa.toNat) || sum.carry
  else decide (a.toInt * 2 ^ sa.toNat < -(2 ^ 31 : Int) ∨ (2 ^ 31 : Int) ≤ a.toInt * 2 ^ sa.toNat) || sum.overflow

/-- SHLA (43_computational.md R213); ST.CB is not written. -/
def execShla (r : GReg) (l o : Bool) (sa : BitVec 2) (a b : GReg) (s : State) : Host.Outcome State Fault Refusal :=
  if o && shlaOverflow l sa (s.readGr a) (s.readGr b) then conclude s (raiseInstr .overflow (s.instrWord (.shla r l o sa a b)))
  else .next (s.result r ((s.readGr a <<< sa.toNat) + s.readGr b))

end Sys2Proof.Machine
end

