-- ==== Sys2Proof/Machine/BitField.lean ====
section
/-! DEFINITION. EXTR, DEP, DSR, LSID (43_computational.md R207 to R214). -/

namespace Sys2Proof.Machine

/-- The shift amount of a bit field: the instruction's, or with A that of SHAMT (43_computational.md R207). -/
def State.fieldShift (s : State) (av : Bool) (pos : BitVec 5) : Nat := if av then s.shamt else pos.toNat

/-- A mask of `len` ones, `sh` bits from the right (43_computational.md R207). -/
def fieldMask (len sh : Nat) : Word := BitVec.ofNat 32 ((2 ^ len - 1) * 2 ^ sh)

/-- The field of a word, right justified, sign-extended where asked; an empty field is 0 (43_computational.md R208). -/
def extractField (x : Word) (sg : Bool) (len sh : Nat) : Word :=
  let v := (x >>> sh) &&& fieldMask len 0
  if sg && decide (0 < len) && v.getLsbD (len - 1) then v ||| ~~~fieldMask len 0 else v

/-- A field put into a word (43_computational.md R210). -/
def depositField (base src : Word) (len sh : Nat) : Word :=
  (base &&& ~~~fieldMask len sh) ||| ((src <<< sh) &&& fieldMask len sh)

/-- Why a field is refused (43_computational.md R207): it leaves the word, or it is empty and BITF_LEN0 = refuse. -/
def fieldRefusal (len sh : Nat) : Option Refusal :=
  if 32 < sh + len then some .bitFieldBeyondWord
  else if len = 0 ∧ Config.bitfLen0 = .refuse then some .emptyBitField
  else none

/-- EXTR (43_computational.md R208); a field that leaves the word is refused (R207). -/
def execExtr (r : GReg) (sg av : Bool) (len pos : BitVec 5) (b : GReg) (s : State) : Host.Outcome State Fault Refusal :=
  let sh := s.fieldShift av pos
  match fieldRefusal len.toNat sh with
  | some e => .refused e
  | none => .next (s.result r (extractField (s.readGr b) sg len.toNat sh))

/-- DEP (43_computational.md R210) of the source `src`; a field that leaves the word is refused (R207).
DESIGN CHOICE (log 26): an empty field (len = 0) changes nothing, with Z too, as decision D18 and
93_implementation_defined.md U9 say; the pseudocode of R210 would clear GR[r] with Z. -/
def deposit (r : GReg) (z av : Bool) (len pos : BitVec 5) (src : Word) (s : State) :
    Host.Outcome State Fault Refusal :=
  let sh := s.fieldShift av pos
  match fieldRefusal len.toNat sh with
  | some e => .refused e
  | none => .next (s.result r (depositField (if z && decide (0 < len.toNat) then 0#32 else s.readGr r) src len.toNat sh))

/-- DEP of a register (43_computational.md R210). -/
def execDepReg (r : GReg) (z av : Bool) (len pos : BitVec 5) (b : GReg) (s : State) : Host.Outcome State Fault Refusal :=
  deposit r z av len pos (s.readGr b) s

/-- DEP of a 4-bit immediate, zero-extended (43_computational.md R210). -/
def execDepImm (r : GReg) (z av : Bool) (len pos : BitVec 5) (imm4 : BitVec 4) (s : State) : Host.Outcome State Fault Refusal :=
  deposit r z av len pos (imm4.setWidth 32) s

/-- The low word of a two-word value shifted right (43_computational.md R212). -/
def doubleShift (left right : Word) (sh : Nat) : Word :=
  BitVec.ofNat 32 ((left.toNat * 2 ^ 32 + right.toNat) / 2 ^ sh)

/-- DSR (43_computational.md R212). -/
def execDsr (r : GReg) (av : Bool) (sh : BitVec 5) (a b : GReg) (s : State) : Host.Outcome State Fault Refusal :=
  .next (s.result r (doubleShift (s.readGr b) (s.readGr a) (s.fieldShift av sh)))

/-- LSID (43_computational.md R214). -/
def execLsid (r b : GReg) (s : State) : Host.Outcome State Fault Refusal :=
  .next (s.result r (s.logicalSeg (s.readGr b)))

end Sys2Proof.Machine
end

