-- ==== Sys2Proof/Machine/Compare.lean ====
section
/-! DEFINITION. CMP, CMPU, CMR (43_computational.md R200 to R204). -/

namespace Sys2Proof.Machine

/-- The signed conditions of CMP (43_computational.md R200). -/
def cmpSigned (cond : BitVec 2) (a b : Word) : Bool :=
  match cond with
  | 0#2 => decide (a = b)
  | 1#2 => decide (a ≠ b)
  | 2#2 => decide (a.toInt < b.toInt)
  | _ => decide (a.toInt ≤ b.toInt)

/-- The unsigned conditions of CMPU (43_computational.md R201). -/
def cmpUnsigned (cond : BitVec 2) (a b : Word) : Bool :=
  match cond with
  | 0#2 => decide (a = b)
  | 1#2 => decide (a ≠ b)
  | 2#2 => decide (a.toNat < b.toNat)
  | _ => decide (a.toNat ≤ b.toNat)

/-- One or zero (43_computational.md R200). -/
def boolWord (v : Bool) : Word := if v then 1#32 else 0#32

/-- CMP, CMPU (43_computational.md R200, R201). -/
def compareOp (holds : Word → Word → Bool) (instr : Word) (r : GReg) (x : Operand) (s : State) : Except Stop State :=
  match s.operand instr r x with
  | .error e => .error e
  | .ok (a, b) => .ok (s.result r (boolWord (holds a b)))

/-- CMP, mode 0 (43_computational.md R200). -/
def execCmpImm (r : GReg) (cond : BitVec 2) (val : BitVec 18) (s : State) : Host.Outcome State Fault Refusal :=
  conclude s (compareOp (cmpSigned cond) (s.instrWord (.cmpImm r cond val)) r (.imm val) s)

/-- CMP, mode 1 (43_computational.md R200). -/
def execCmpReg (r : GReg) (cond : BitVec 2) (a b : GReg) (s : State) : Host.Outcome State Fault Refusal :=
  conclude s (compareOp (cmpSigned cond) (s.instrWord (.cmpReg r cond a b)) r (.reg a b) s)

/-- CMP, mode 2 (43_computational.md R200). -/
def execCmpIdx (r : GReg) (cond dw : BitVec 2) (a b : GReg) (s : State) : Host.Outcome State Fault Refusal :=
  conclude s (compareOp (cmpSigned cond) (s.instrWord (.cmpIdx r cond dw a b)) r (.idx dw a b) s)

/-- CMP, mode 3 (43_computational.md R200). -/
def execCmpOfs (r : GReg) (cond dw : BitVec 2) (ofs : BitVec 12) (b : GReg) (s : State) : Host.Outcome State Fault Refusal :=
  conclude s (compareOp (cmpSigned cond) (s.instrWord (.cmpOfs r cond dw ofs b)) r (.ofs dw ofs b) s)

/-- CMPU, mode 0 (43_computational.md R201). -/
def execCmpuImm (r : GReg) (cond : BitVec 2) (val : BitVec 18) (s : State) : Host.Outcome State Fault Refusal :=
  conclude s (compareOp (cmpUnsigned cond) (s.instrWord (.cmpuImm r cond val)) r (.imm val) s)

/-- CMPU, mode 1 (43_computational.md R201). -/
def execCmpuReg (r : GReg) (cond : BitVec 2) (a b : GReg) (s : State) : Host.Outcome State Fault Refusal :=
  conclude s (compareOp (cmpUnsigned cond) (s.instrWord (.cmpuReg r cond a b)) r (.reg a b) s)

/-- CMPU, mode 2 (43_computational.md R201). -/
def execCmpuIdx (r : GReg) (cond dw : BitVec 2) (a b : GReg) (s : State) : Host.Outcome State Fault Refusal :=
  conclude s (compareOp (cmpUnsigned cond) (s.instrWord (.cmpuIdx r cond dw a b)) r (.idx dw a b) s)

/-- CMPU, mode 3 (43_computational.md R201). -/
def execCmpuOfs (r : GReg) (cond dw : BitVec 2) (ofs : BitVec 12) (b : GReg) (s : State) : Host.Outcome State Fault Refusal :=
  conclude s (compareOp (cmpUnsigned cond) (s.instrWord (.cmpuOfs r cond dw ofs b)) r (.ofs dw ofs b) s)

/-- CMR (43_computational.md R204): where the condition holds, GR[a] is moved to GR[r]. -/
def condMove (holds : Bool) (r a : GReg) (s : State) : State :=
  if holds then s.result r (s.readGr a) else s.advance

/-- CMR.EQ (43_computational.md R204). -/
def execCmrEq (r a b : GReg) (s : State) : Host.Outcome State Fault Refusal :=
  .next (condMove (decide (s.readGr b = 0#32)) r a s)

/-- CMR.LT (43_computational.md R204). -/
def execCmrLt (r a b : GReg) (s : State) : Host.Outcome State Fault Refusal :=
  .next (condMove (decide ((s.readGr b).toInt < 0)) r a s)

/-- CMR.GT (43_computational.md R204). -/
def execCmrGt (r a b : GReg) (s : State) : Host.Outcome State Fault Refusal :=
  .next (condMove (decide (0 < (s.readGr b).toInt)) r a s)

/-- CMR.EV (43_computational.md R204). -/
def execCmrEv (r a b : GReg) (s : State) : Host.Outcome State Fault Refusal :=
  .next (condMove (decide (bit (s.readGr b) 31 = false)) r a s)

/-- CMR.NE (43_computational.md R204). -/
def execCmrNe (r a b : GReg) (s : State) : Host.Outcome State Fault Refusal :=
  .next (condMove (decide (s.readGr b ≠ 0#32)) r a s)

/-- CMR.LE (43_computational.md R204). -/
def execCmrLe (r a b : GReg) (s : State) : Host.Outcome State Fault Refusal :=
  .next (condMove (decide ((s.readGr b).toInt ≤ 0)) r a s)

/-- CMR.GE (43_computational.md R204). -/
def execCmrGe (r a b : GReg) (s : State) : Host.Outcome State Fault Refusal :=
  .next (condMove (decide (0 ≤ (s.readGr b).toInt)) r a s)

/-- CMR.OD (43_computational.md R204). -/
def execCmrOd (r a b : GReg) (s : State) : Host.Outcome State Fault Refusal :=
  .next (condMove (decide (bit (s.readGr b) 31 = true)) r a s)

end Sys2Proof.Machine
end

