-- ==== Sys2Proof/Machine/Branch.lean ====
section
/-! DEFINITION. B, BR, BV, BE, BLE, BVE, GATE, CBR (42_branch.md R170 to R182). -/

namespace Sys2Proof.Machine

/-- A displacement in words, as a byte displacement (42_branch.md R170, R171). -/
def wordDisp (v : Word) : Word := v <<< 2

/-- The offset of the instruction after the current one: the link of a branch (42_branch.md R170). -/
def State.linkOfs (s : State) : Word := s.iaOfs + 4#32

/-- IA-SEG of an external branch: the new segment id with code translation on, unchanged with it off
(42_branch.md R174, R176, R177; decision D38). -/
def State.enterSeg (s : State) (seg : Word) : State := { s with iaSeg := if s.cBit then truncSeg seg else s.iaSeg }

/-- B (42_branch.md R171). -/
def execBranch (r : GReg) (ofs22 : BitVec 22) (s : State) : Host.Outcome State Fault Refusal :=
  .next ((s.writeGr r s.linkOfs).setIaOfs (s.iaOfs + wordDisp (lse ofs22)))

/-- BR (42_branch.md R172). -/
def execBr (r b : GReg) (s : State) : Host.Outcome State Fault Refusal :=
  .next ((s.writeGr r s.linkOfs).setIaOfs (s.iaOfs + wordDisp (s.readGr b)))

/-- BV (42_branch.md R173). -/
def execBv (a b : GReg) (s : State) : Host.Outcome State Fault Refusal :=
  .next (s.setIaOfs (s.readGr b + wordDisp (s.readGr a)))

/-- BE (42_branch.md R174). -/
def execBe (ofs18 : BitVec 18) (sreg : BitVec 4) (b : GReg) (s : State) : Host.Outcome State Fault Refusal :=
  .next ((s.enterSeg (s.readSr (sreg.setWidth 3))).setIaOfs (s.readGr b + wordDisp (lse ofs18)))

/-- BLE (42_branch.md R176): the link is SR0 and GR1; every source is read before a register is written. -/
def execBle (ofs18 : BitVec 18) (sreg : BitVec 4) (b : GReg) (s : State) : Host.Outcome State Fault Refusal :=
  .next ((((s.writeSr 0#3 s.iaSeg).writeGr 1#4 s.linkOfs).enterSeg (s.readSr (sreg.setWidth 3))).setIaOfs
    (s.readGr b + wordDisp (lse ofs18)))

/-- BVE (42_branch.md R177): the segment is selected by GR[b] alone. -/
def execBve (a b : GReg) (s : State) : Host.Outcome State Fault Refusal :=
  .next ((s.enterSeg (s.logicalSeg (s.readGr b))).setIaOfs (s.readGr b + wordDisp (s.readGr a)))

/-- The level of a gateway page that GATE enters (42_branch.md R178, GATE_LEVEL_FIELD, decision D19). -/
def gateField (ar : BitVec 4) : Nat :=
  match Config.gateLevelField with
  | .pl2 => arPl2 ar
  | .pl1 => arPl1 ar

/-- The execution level GATE leaves, as ST.X (42_branch.md R178, decision D19): privileged with code translation off;
on a gateway page the lower of the level and the page's; else unchanged. Segment zero has no
entry, and a page without an entry cannot have been fetched from. -/
def State.gateLevel (s : State) : Bool :=
  if s.cBit = false then false
  else if bypasses s.iaSeg then s.xBit
  else match s.tlbLookup .instr s.iaSeg s.iaOfs with
    | some e => if pageType e.ar = 3 then decide (min s.level (gateField e.ar) = 1) else s.xBit
    | none => s.xBit

/-- GATE (42_branch.md R178). -/
def execGate (r : GReg) (ofs22 : BitVec 22) (s : State) : Host.Outcome State Fault Refusal :=
  .next (((s.writeGr r (boolWord s.xBit)).setStatusBit stX s.gateLevel).setIaOfs
    (s.iaOfs + wordDisp (lse ofs22)))

/-- CBR (42_branch.md R179): the target where the condition holds, else the next instruction. -/
def condBranch (holds : Bool) (ofs15 : BitVec 15) (s : State) : State :=
  if holds then s.setIaOfs (s.iaOfs + wordDisp (lse ofs15)) else s.advance

/-- CBR.EQ (42_branch.md R179). -/
def execCbrEq (ofs15 : BitVec 15) (a b : GReg) (s : State) : Host.Outcome State Fault Refusal :=
  .next (condBranch (decide (s.readGr a = s.readGr b)) ofs15 s)

/-- CBR.LT (42_branch.md R179). -/
def execCbrLt (ofs15 : BitVec 15) (a b : GReg) (s : State) : Host.Outcome State Fault Refusal :=
  .next (condBranch (decide ((s.readGr a).toInt < (s.readGr b).toInt)) ofs15 s)

/-- CBR.GT (42_branch.md R179). -/
def execCbrGt (ofs15 : BitVec 15) (a b : GReg) (s : State) : Host.Outcome State Fault Refusal :=
  .next (condBranch (decide ((s.readGr b).toInt < (s.readGr a).toInt)) ofs15 s)

/-- CBR.LS (42_branch.md R179). -/
def execCbrLs (ofs15 : BitVec 15) (a b : GReg) (s : State) : Host.Outcome State Fault Refusal :=
  .next (condBranch (decide ((s.readGr a).toNat ≤ (s.readGr b).toNat)) ofs15 s)

/-- CBR.NE (42_branch.md R179). -/
def execCbrNe (ofs15 : BitVec 15) (a b : GReg) (s : State) : Host.Outcome State Fault Refusal :=
  .next (condBranch (decide (s.readGr a ≠ s.readGr b)) ofs15 s)

/-- CBR.LE (42_branch.md R179). -/
def execCbrLe (ofs15 : BitVec 15) (a b : GReg) (s : State) : Host.Outcome State Fault Refusal :=
  .next (condBranch (decide ((s.readGr a).toInt ≤ (s.readGr b).toInt)) ofs15 s)

/-- CBR.GE (42_branch.md R179). -/
def execCbrGe (ofs15 : BitVec 15) (a b : GReg) (s : State) : Host.Outcome State Fault Refusal :=
  .next (condBranch (decide ((s.readGr b).toInt ≤ (s.readGr a).toInt)) ofs15 s)

/-- CBR.HI (42_branch.md R179). -/
def execCbrHi (ofs15 : BitVec 15) (a b : GReg) (s : State) : Host.Outcome State Fault Refusal :=
  .next (condBranch (decide ((s.readGr b).toNat < (s.readGr a).toNat)) ofs15 s)

end Sys2Proof.Machine
end

