-- ==== Sys2Proof/Machine/Control.lean ====
section
/-! DEFINITION. DIAG, RFI, BRK (44_system_control.md R229, R236, R237). -/

namespace Sys2Proof.Machine

/-- DIAG (44_system_control.md R229). -/
def execDiag (r a b : GReg) (s : State) : Host.Outcome State Fault Refusal :=
  conclude s (privileged s (s.instrWord (.diag r a b)) (.ok (s.result r (Config.diagFn (s.readGr a) (s.readGr b)))))

/-- RFI (44_system_control.md R236). -/
def execRfi  (s : State) : Host.Outcome State Fault Refusal :=
  conclude s (privileged s (s.instrWord .rfi) (.ok s.returnFromTrap))

/-- BRK (44_system_control.md R237): BRK 0, 0 does nothing.
DESIGN CHOICE (log 30): where bits 10 to 15 of a word are not refused (RESERVED_NONZERO = ignore), a word with both info
fields zero is BRK 0, 0 whatever those bits are; 60_exceptions.md R286 has trap 18 for every BRK word that is not zero. -/
def execBrk (info1 : BitVec 4) (info2 : BitVec 16) (s : State) : Host.Outcome State Fault Refusal :=
  if info1 = 0#4 ∧ info2 = 0#16 then .next s.advance
  else conclude s (raiseData .breakInstr (s.instrWord (.brk info1 info2)) 0#32 0#32)

end Sys2Proof.Machine
end

