-- ==== Sys2Proof/Machine/LoadStore.lean ====
section
/-! DEFINITION. LDB, LDH, LDW, STB, STH, STW (40_memory_reference.md R140 to R143). -/

namespace Sys2Proof.Machine

/-- A load through an address form whose segment id is `segOf` of the offset; the loaded value is written last
(40_memory_reference.md R141, R142, R145). -/
def load (instr : Word) (w : Width) (r : GReg) (m : Bool) (b : GReg) (disp : Word) (segOf : Word → Word)
    (s : State) : Except Stop State :=
  let ea := effAddr m (s.readGr b) disp
  match s.memRead instr (segOf ea.ofs) ea.ofs w with
  | .ok v => .ok ((s.writeBase b ea.newBase).result r v)
  | .error e => .error e

/-- A store of GR[r] through such an address form (40_memory_reference.md R141, R143, R146). -/
def store (instr : Word) (w : Width) (r : GReg) (m : Bool) (b : GReg) (disp : Word) (segOf : Word → Word)
    (s : State) : Except Stop State :=
  let ea := effAddr m (s.readGr b) disp
  match s.memWrite instr (segOf ea.ofs) ea.ofs w (s.readGr r) with
  | .ok t => .ok ((t.writeBase b ea.newBase).advance)
  | .error e => .error e

/-- LDB, mode 2 (40_memory_reference.md R142). -/
def execLdbIdx (r : GReg) (m : Bool) (a b : GReg) (s : State) : Host.Outcome State Fault Refusal :=
  conclude s (load (s.instrWord (.ldbIdx r m a b)) .byte r m b (s.readGr a) s.logicalSeg s)

/-- LDB, mode 3 (40_memory_reference.md R142). -/
def execLdbOfs (r : GReg) (m : Bool) (ofs : BitVec 12) (b : GReg) (s : State) : Host.Outcome State Fault Refusal :=
  conclude s (load (s.instrWord (.ldbOfs r m ofs b)) .byte r m b (lse ofs) s.logicalSeg s)

/-- LDH, mode 2 (40_memory_reference.md R142). -/
def execLdhIdx (r : GReg) (m : Bool) (a b : GReg) (s : State) : Host.Outcome State Fault Refusal :=
  conclude s (load (s.instrWord (.ldhIdx r m a b)) .half r m b (s.readGr a) s.logicalSeg s)

/-- LDH, mode 3 (40_memory_reference.md R142). -/
def execLdhOfs (r : GReg) (m : Bool) (ofs : BitVec 12) (b : GReg) (s : State) : Host.Outcome State Fault Refusal :=
  conclude s (load (s.instrWord (.ldhOfs r m ofs b)) .half r m b (lse ofs) s.logicalSeg s)

/-- LDW, mode 2 (40_memory_reference.md R142). -/
def execLdwIdx (r : GReg) (m : Bool) (a b : GReg) (s : State) : Host.Outcome State Fault Refusal :=
  conclude s (load (s.instrWord (.ldwIdx r m a b)) .word r m b (s.readGr a) s.logicalSeg s)

/-- LDW, mode 3 (40_memory_reference.md R142). -/
def execLdwOfs (r : GReg) (m : Bool) (ofs : BitVec 12) (b : GReg) (s : State) : Host.Outcome State Fault Refusal :=
  conclude s (load (s.instrWord (.ldwOfs r m ofs b)) .word r m b (lse ofs) s.logicalSeg s)

/-- STB (40_memory_reference.md R143). -/
def execStb (r : GReg) (m : Bool) (ofs : BitVec 12) (b : GReg) (s : State) : Host.Outcome State Fault Refusal :=
  conclude s (store (s.instrWord (.stb r m ofs b)) .byte r m b (lse ofs) s.logicalSeg s)

/-- STH (40_memory_reference.md R143). -/
def execSth (r : GReg) (m : Bool) (ofs : BitVec 12) (b : GReg) (s : State) : Host.Outcome State Fault Refusal :=
  conclude s (store (s.instrWord (.sth r m ofs b)) .half r m b (lse ofs) s.logicalSeg s)

/-- STW (40_memory_reference.md R143). -/
def execStw (r : GReg) (m : Bool) (ofs : BitVec 12) (b : GReg) (s : State) : Host.Outcome State Fault Refusal :=
  conclude s (store (s.instrWord (.stw r m ofs b)) .word r m b (lse ofs) s.logicalSeg s)

end Sys2Proof.Machine
end

