-- ==== Sys2Proof/Machine/Extended.lean ====
section
/-! DEFINITION. LDEB, LDEH, LDEW, LDEXB, LDEXH, LDEXW, STEB, STEH, STEW (40_memory_reference.md R144 to R146). -/

namespace Sys2Proof.Machine

/-- An extended instruction with data translation off is trap 5, before every other check
(40_memory_reference.md R144). -/
def extended (s : State) (instr : Word) (r : Except Stop State) : Except Stop State :=
  if s.dBit then r else raiseInstr .illegalInstruction instr

/-- LDEB (40_memory_reference.md R145). -/
def execLdeb (r : GReg) (m : Bool) (seg : BitVec 2) (ofs : BitVec 12) (b : GReg) (s : State) : Host.Outcome State Fault Refusal :=
  conclude s (extended s (s.instrWord (.ldeb r m seg ofs b))
    (load (s.instrWord (.ldeb r m seg ofs b)) .byte r m b (lse ofs) (s.extSeg seg) s))

/-- LDEH (40_memory_reference.md R145). -/
def execLdeh (r : GReg) (m : Bool) (seg : BitVec 2) (ofs : BitVec 12) (b : GReg) (s : State) : Host.Outcome State Fault Refusal :=
  conclude s (extended s (s.instrWord (.ldeh r m seg ofs b))
    (load (s.instrWord (.ldeh r m seg ofs b)) .half r m b (lse ofs) (s.extSeg seg) s))

/-- LDEW (40_memory_reference.md R145). -/
def execLdew (r : GReg) (m : Bool) (seg : BitVec 2) (ofs : BitVec 12) (b : GReg) (s : State) : Host.Outcome State Fault Refusal :=
  conclude s (extended s (s.instrWord (.ldew r m seg ofs b))
    (load (s.instrWord (.ldew r m seg ofs b)) .word r m b (lse ofs) (s.extSeg seg) s))

/-- LDEXB (40_memory_reference.md R145). -/
def execLdexb (r : GReg) (m : Bool) (seg : BitVec 2) (a b : GReg) (s : State) : Host.Outcome State Fault Refusal :=
  conclude s (extended s (s.instrWord (.ldexb r m seg a b))
    (load (s.instrWord (.ldexb r m seg a b)) .byte r m b (s.readGr a) (s.extSeg seg) s))

/-- LDEXH (40_memory_reference.md R145). -/
def execLdexh (r : GReg) (m : Bool) (seg : BitVec 2) (a b : GReg) (s : State) : Host.Outcome State Fault Refusal :=
  conclude s (extended s (s.instrWord (.ldexh r m seg a b))
    (load (s.instrWord (.ldexh r m seg a b)) .half r m b (s.readGr a) (s.extSeg seg) s))

/-- LDEXW (40_memory_reference.md R145). -/
def execLdexw (r : GReg) (m : Bool) (seg : BitVec 2) (a b : GReg) (s : State) : Host.Outcome State Fault Refusal :=
  conclude s (extended s (s.instrWord (.ldexw r m seg a b))
    (load (s.instrWord (.ldexw r m seg a b)) .word r m b (s.readGr a) (s.extSeg seg) s))

/-- STEB (40_memory_reference.md R146). -/
def execSteb (r : GReg) (m : Bool) (seg : BitVec 2) (ofs : BitVec 12) (b : GReg) (s : State) : Host.Outcome State Fault Refusal :=
  conclude s (extended s (s.instrWord (.steb r m seg ofs b))
    (store (s.instrWord (.steb r m seg ofs b)) .byte r m b (lse ofs) (s.extSeg seg) s))

/-- STEH (40_memory_reference.md R146). -/
def execSteh (r : GReg) (m : Bool) (seg : BitVec 2) (ofs : BitVec 12) (b : GReg) (s : State) : Host.Outcome State Fault Refusal :=
  conclude s (extended s (s.instrWord (.steh r m seg ofs b))
    (store (s.instrWord (.steh r m seg ofs b)) .half r m b (lse ofs) (s.extSeg seg) s))

/-- STEW (40_memory_reference.md R146). -/
def execStew (r : GReg) (m : Bool) (seg : BitVec 2) (ofs : BitVec 12) (b : GReg) (s : State) : Host.Outcome State Fault Refusal :=
  conclude s (extended s (s.instrWord (.stew r m seg ofs b))
    (store (s.instrWord (.stew r m seg ofs b)) .word r m b (lse ofs) (s.extSeg seg) s))

end Sys2Proof.Machine
end

