-- ==== Sys2Proof/Machine/Logical.lean ====
section
/-! DEFINITION. AND, OR, XOR (43_computational.md R196 to R198). -/

namespace Sys2Proof.Machine

/-- AND, OR, XOR (43_computational.md R196 to R198): C complements the second operand, N the result. -/
def logical (op : Word → Word → Word) (instr : Word) (r : GReg) (n c : Bool) (x : Operand) (s : State) :
    Except Stop State :=
  match s.operand instr r x with
  | .error e => .error e
  | .ok (a, b) =>
    let res := op a (if c then ~~~b else b)
    .ok (s.result r (if n then ~~~res else res))

/-- AND, mode 0 (43_computational.md R196). -/
def execAndImm (r : GReg) (n c : Bool) (val : BitVec 18) (s : State) : Host.Outcome State Fault Refusal :=
  conclude s (logical (· &&& ·) (s.instrWord (.andImm r n c val)) r n c (.imm val) s)

/-- AND, mode 1 (43_computational.md R196). -/
def execAndReg (r : GReg) (n c : Bool) (a b : GReg) (s : State) : Host.Outcome State Fault Refusal :=
  conclude s (logical (· &&& ·) (s.instrWord (.andReg r n c a b)) r n c (.reg a b) s)

/-- AND, mode 2 (43_computational.md R196). -/
def execAndIdx (r : GReg) (n c : Bool) (dw : BitVec 2) (a b : GReg) (s : State) : Host.Outcome State Fault Refusal :=
  conclude s (logical (· &&& ·) (s.instrWord (.andIdx r n c dw a b)) r n c (.idx dw a b) s)

/-- AND, mode 3 (43_computational.md R196). -/
def execAndOfs (r : GReg) (n c : Bool) (dw : BitVec 2) (ofs : BitVec 12) (b : GReg) (s : State) : Host.Outcome State Fault Refusal :=
  conclude s (logical (· &&& ·) (s.instrWord (.andOfs r n c dw ofs b)) r n c (.ofs dw ofs b) s)

/-- OR, mode 0 (43_computational.md R197). -/
def execOrImm (r : GReg) (n c : Bool) (val : BitVec 18) (s : State) : Host.Outcome State Fault Refusal :=
  conclude s (logical (· ||| ·) (s.instrWord (.orImm r n c val)) r n c (.imm val) s)

/-- OR, mode 1 (43_computational.md R197). -/
def execOrReg (r : GReg) (n c : Bool) (a b : GReg) (s : State) : Host.Outcome State Fault Refusal :=
  conclude s (logical (· ||| ·) (s.instrWord (.orReg r n c a b)) r n c (.reg a b) s)

/-- OR, mode 2 (43_computational.md R197). -/
def execOrIdx (r : GReg) (n c : Bool) (dw : BitVec 2) (a b : GReg) (s : State) : Host.Outcome State Fault Refusal :=
  conclude s (logical (· ||| ·) (s.instrWord (.orIdx r n c dw a b)) r n c (.idx dw a b) s)

/-- OR, mode 3 (43_computational.md R197). -/
def execOrOfs (r : GReg) (n c : Bool) (dw : BitVec 2) (ofs : BitVec 12) (b : GReg) (s : State) : Host.Outcome State Fault Refusal :=
  conclude s (logical (· ||| ·) (s.instrWord (.orOfs r n c dw ofs b)) r n c (.ofs dw ofs b) s)

/-- XOR, mode 0 (43_computational.md R198). -/
def execXorImm (r : GReg) (n c : Bool) (val : BitVec 18) (s : State) : Host.Outcome State Fault Refusal :=
  conclude s (logical (· ^^^ ·) (s.instrWord (.xorImm r n c val)) r n c (.imm val) s)

/-- XOR, mode 1 (43_computational.md R198). -/
def execXorReg (r : GReg) (n c : Bool) (a b : GReg) (s : State) : Host.Outcome State Fault Refusal :=
  conclude s (logical (· ^^^ ·) (s.instrWord (.xorReg r n c a b)) r n c (.reg a b) s)

/-- XOR, mode 2 (43_computational.md R198). -/
def execXorIdx (r : GReg) (n c : Bool) (dw : BitVec 2) (a b : GReg) (s : State) : Host.Outcome State Fault Refusal :=
  conclude s (logical (· ^^^ ·) (s.instrWord (.xorIdx r n c dw a b)) r n c (.idx dw a b) s)

/-- XOR, mode 3 (43_computational.md R198). -/
def execXorOfs (r : GReg) (n c : Bool) (dw : BitVec 2) (ofs : BitVec 12) (b : GReg) (s : State) : Host.Outcome State Fault Refusal :=
  conclude s (logical (· ^^^ ·) (s.instrWord (.xorOfs r n c dw ofs b)) r n c (.ofs dw ofs b) s)

end Sys2Proof.Machine
end

