-- ==== Sys2Proof/Machine/Reserved.lean ====
section
/-! DEFINITION. LDWR, STWC (40_memory_reference.md R149, R150; 20_memory.md R85, R86). -/

namespace Sys2Proof.Machine

/-- LDWR at a logical address: a word load that makes the reservation (40_memory_reference.md R149,
20_memory.md R85). -/
def loadReserved (instr : Word) (r : GReg) (x : Word) (s : State) : Except Stop State :=
  match s.dataAddr .read instr (s.logicalSeg x) x .word with
  | .error e => .error e
  | .ok paddr =>
    match s.physRead paddr .word with
    | .error e => .error e
    | .ok v => .ok ({ s with lrValid := true, lrAddr := paddr }.result r v)

/-- The implementation drops the reservation of its own accord (20_memory.md R86, item 5); never, by default. -/
def State.dropsReservation (s : State) : Bool :=
  Config.reservationMayDrop && decide (Config.freeChoice s.freeCount % 2 = 1)

/-- Whether a STWC to a physical address succeeds (20_memory.md R85, R86). -/
def State.reservationHolds (s : State) (paddr : Word) : Bool :=
  s.lrValid && decide (s.lrAddr = paddr) && !s.dropsReservation

/-- The state a STWC leaves its reservation in: none (20_memory.md R86, item 3). -/
def State.endReservation (s : State) : State :=
  { s with
    lrValid := false
    freeCount := if Config.reservationMayDrop then s.freeCount + 1 else s.freeCount }

/-- STWC at a logical address: every write check is made first; the store happens if the reservation holds; the
reservation ends (40_memory_reference.md R150, 20_memory.md R85). -/
def storeConditional (instr : Word) (r : GReg) (x : Word) (s : State) : Except Stop State :=
  match s.dataAddr .write instr (s.logicalSeg x) x .word with
  | .error e => .error e
  | .ok paddr =>
    if s.reservationHolds paddr then
      match s.physWrite paddr .word (s.readGr r) with
      | .error e => .error e
      | .ok t => .ok (t.endReservation.result r 0#32)
    else .ok (s.endReservation.result r 1#32)

/-- LDWR, mode 2 (40_memory_reference.md R149). -/
def execLdwrIdx (r a b : GReg) (s : State) : Host.Outcome State Fault Refusal :=
  conclude s (loadReserved (s.instrWord (.ldwrIdx r a b)) r (s.readGr b + s.readGr a) s)

/-- LDWR, mode 3 (40_memory_reference.md R149). -/
def execLdwrOfs (r : GReg) (ofs : BitVec 12) (b : GReg) (s : State) : Host.Outcome State Fault Refusal :=
  conclude s (loadReserved (s.instrWord (.ldwrOfs r ofs b)) r (s.readGr b + lse ofs) s)

/-- STWC (40_memory_reference.md R150). -/
def execStwc (r : GReg) (ofs : BitVec 12) (b : GReg) (s : State) : Host.Outcome State Fault Refusal :=
  conclude s (storeConditional (s.instrWord (.stwc r ofs b)) r (s.readGr b + lse ofs) s)

end Sys2Proof.Machine
end

