-- ==== Sys2Proof/Machine/SystemRegisters.lean ====
section
/-! DEFINITION. MR, MST (44_system_control.md R220 to R223). -/

namespace Sys2Proof.Machine

/-- MR from a segment register, never privileged (44_system_control.md R220). -/
def execMrFromSr (r : GReg) (sr : SReg) (s : State) : Host.Outcome State Fault Refusal :=
  .next (s.result r (s.readSr sr))

/-- MR from a control register, never privileged (44_system_control.md R220). -/
def execMrFromCr (r : GReg) (cr : CReg) (s : State) : Host.Outcome State Fault Refusal :=
  .next (s.result r (s.readCr cr))

/-- MR to a segment register; SR5, SR6 and SR7 are privileged (44_system_control.md R220, R221). -/
def execMrToSr (r : GReg) (sr : SReg) (s : State) : Host.Outcome State Fault Refusal :=
  if s.xBit && decide (5 ≤ sr.toNat) then conclude s (raiseInstr .privilegedOperation (s.instrWord (.mrToSr r sr)))
  else .next ((s.writeSr sr (s.readGr r)).advance)

/-- MR to a control register; every one but SHAMT is privileged (44_system_control.md R220 to R222). -/
def execMrToCr (r : GReg) (cr : CReg) (s : State) : Host.Outcome State Fault Refusal :=
  if s.xBit && decide (cr ≠ 2#5) then conclude s (raiseInstr .privilegedOperation (s.instrWord (.mrToCr r cr)))
  else .next ((s.writeCr cr (s.readGr r)).advance)

/-- The bits of ST that MST can change, ST[26:31] (44_system_control.md R223). -/
def systemMask : Word := 0x3F#32

/-- MST (44_system_control.md R223): ST[26:31] is replaced, the old bits go to GR[r]. -/
def moveStatus (r : GReg) (new : Word) (s : State) : State :=
  (s.setSt ((s.st &&& ~~~systemMask) ||| (new &&& systemMask))).result r (s.st &&& systemMask)

/-- MST, mode 0 (44_system_control.md R223). -/
def execMst (r b : GReg) (s : State) : Host.Outcome State Fault Refusal :=
  conclude s (privileged s (s.instrWord (.mst r b)) (.ok (moveStatus r (s.readGr b) s)))

/-- MST.S, mode 1 (44_system_control.md R223). -/
def execMstSet (r : GReg) (val6 : BitVec 6) (s : State) : Host.Outcome State Fault Refusal :=
  conclude s (privileged s (s.instrWord (.mstSet r val6)) (.ok (moveStatus r (s.st ||| val6.setWidth 32) s)))

/-- MST.C, mode 2 (44_system_control.md R223). -/
def execMstClear (r : GReg) (val6 : BitVec 6) (s : State) : Host.Outcome State Fault Refusal :=
  conclude s (privileged s (s.instrWord (.mstClear r val6)) (.ok (moveStatus r (s.st &&& ~~~val6.setWidth 32) s)))

end Sys2Proof.Machine
end

