-- ==== Sys2Proof/Machine/VirtualMemory.lean ====
section
/-! DEFINITION. LDPA, PRB, ITLB, PTLB, PCA (44_system_control.md R224 to R228). -/

namespace Sys2Proof.Machine

/-- A translation that is no access: of segment zero the offset itself, else through the TLB named, with the trap
`miss` where it has no entry; no rights are checked (20_memory.md R97, 44_system_control.md R224, R228). -/
def State.nonAccessAddr (s : State) (side : TlbSide) (miss : TrapId) (seg ofs : Word) : Except Stop Word :=
  if bypasses seg then .ok ofs
  else match s.tlbLookup side seg ofs with
    | some e => .ok (pageAddr e.ppn ofs)
    | none => raise miss

/-- LDPA of a logical address (44_system_control.md R224). -/
def loadPhysAddr (r : GReg) (x : Word) (s : State) : Except Stop State :=
  match s.nonAccessAddr .data .nonAccessDataTlbMiss (s.logicalSeg x) x with
  | .ok paddr => .ok (s.result r paddr)
  | .error e => .error e

/-- LDPA, mode 2 (44_system_control.md R224); dw is not examined. -/
def execLdpaIdx (r : GReg) (dw : BitVec 2) (a b : GReg) (s : State) : Host.Outcome State Fault Refusal :=
  conclude s (privileged s (s.instrWord (.ldpaIdx r dw a b)) (loadPhysAddr r (s.readGr b + s.readGr a) s))

/-- LDPA, mode 3 (44_system_control.md R224); dw is not examined. -/
def execLdpaOfs (r : GReg) (dw : BitVec 2) (ofs : BitVec 12) (b : GReg) (s : State) : Host.Outcome State Fault Refusal :=
  conclude s (privileged s (s.instrWord (.ldpaOfs r dw ofs b)) (loadPhysAddr r (s.readGr b + lse ofs) s))

/-- Whether a probe of an address succeeds (44_system_control.md R225). -/
def State.probe (s : State) (kind : Access) (level : Nat) (seg ofs : Word) : Except Stop Bool :=
  if bypasses seg then .ok true
  else match s.tlbLookup .data seg ofs with
    | none => raise .nonAccessDataTlbMiss
    | some e => .ok (accessAllowed kind e.ar level && (!s.pBit || s.pidAllowed kind e.pid))

/-- PRB (44_system_control.md R225): M probes a write; the level is P, or with I all of GR[a].
DESIGN CHOICE (log 28): I = 1 takes GR[a] and I = 0 takes P, as R117, R225 and decision D39 say; rulings C19 and C25 of
90_conflicts.md write it the other way round (P for I = 1, GR[a] for I = 0). -/
def execPrb (r : GReg) (m p byReg : Bool) (seg : BitVec 2) (a b : GReg) (s : State) : Host.Outcome State Fault Refusal :=
  let ofs := s.readGr b
  let level := if byReg then (s.readGr a).toNat else p.toNat
  match s.probe (if m then .write else .read) level (s.extSeg seg ofs) ofs with
  | .ok ok => .next (s.result r (boolWord ok))
  | .error e => conclude s (.error e)

/-- ITLB.A (44_system_control.md R226, 20_memory.md R77). -/
def execItlbA (r : GReg) (t : Bool) (sreg : BitVec 4) (b : GReg) (s : State) : Host.Outcome State Fault Refusal :=
  conclude s (privileged s (s.instrWord (.itlbA r t sreg b))
    (.ok (s.tlbInsertAddr (tlbSide t) (s.readSr (sreg.setWidth 3)) (s.readGr b) (s.readGr r)).advance))

/-- ITLB.P (44_system_control.md R226, 20_memory.md R77). -/
def execItlbP (r : GReg) (t : Bool) (sreg : BitVec 4) (b : GReg) (s : State) : Host.Outcome State Fault Refusal :=
  conclude s (privileged s (s.instrWord (.itlbP r t sreg b))
    (.ok (s.tlbInsertProt (tlbSide t) (s.readSr (sreg.setWidth 3)) (s.readGr b) (s.readGr r)).advance))

/-- PTLB (44_system_control.md R227, 20_memory.md R78). -/
def execPtlb (t : Bool) (sreg : BitVec 4) (b : GReg) (s : State) : Host.Outcome State Fault Refusal :=
  conclude s (privileged s (s.instrWord (.ptlb t sreg b))
    (.ok (s.tlbPurge (tlbSide t) (s.readSr (sreg.setWidth 3)) (s.readGr b)).advance))

/-- PCA (44_system_control.md R228): T selects the data cache, F leaves out the flush. -/
def purgeCache (t f : Bool) (seg ofs : Word) (s : State) : Except Stop State :=
  if t then
    match s.nonAccessAddr .data .nonAccessDataTlbMiss seg ofs with
    | .ok paddr => .ok ((if f then s else s.flushData paddr).purgeData paddr).advance
    | .error e => .error e
  else
    match s.nonAccessAddr .instr .nonAccessInstrTlbMiss seg ofs with
    | .ok paddr => .ok (s.purgeInstr paddr).advance
    | .error e => .error e

/-- PCA (44_system_control.md R228). -/
def execPca (t f : Bool) (sreg : BitVec 4) (b : GReg) (s : State) : Host.Outcome State Fault Refusal :=
  conclude s (privileged s (s.instrWord (.pca t f sreg b)) (purgeCache t f (s.readSr (sreg.setWidth 3)) (s.readGr b) s))

end Sys2Proof.Machine
end

