-- ==== Sys2Proof/Machine/Dispatch.lean ====
section
/-! DEFINITION. The meaning of each instruction, one arm a constructor. -/

namespace Sys2Proof.Machine

def exec (i : Instr) (s : State) : Host.Outcome State Fault Refusal :=
  match i with
  | .brk info1 info2 => Sys2Proof.Machine.execBrk info1 info2 s
  | .ldil r val22 => Sys2Proof.Machine.execLdil r val22 s
  | .addil r val22 => Sys2Proof.Machine.execAddil r val22 s
  | .ldoImm r val => Sys2Proof.Machine.execLdoImm r val s
  | .ldoIdx r dw a b => Sys2Proof.Machine.execLdoIdx r dw a b s
  | .ldoOfs r dw ofs b => Sys2Proof.Machine.execLdoOfs r dw ofs b s
  | .lsid r b => Sys2Proof.Machine.execLsid r b s
  | .extr r sg av len pos b => Sys2Proof.Machine.execExtr r sg av len pos b s
  | .depReg r z av len pos b => Sys2Proof.Machine.execDepReg r z av len pos b s
  | .depImm r z av len pos imm4 => Sys2Proof.Machine.execDepImm r z av len pos imm4 s
  | .dsr r av sh a b => Sys2Proof.Machine.execDsr r av sh a b s
  | .shla r l o sa a b => Sys2Proof.Machine.execShla r l o sa a b s
  | .cmrEq r a b => Sys2Proof.Machine.execCmrEq r a b s
  | .cmrLt r a b => Sys2Proof.Machine.execCmrLt r a b s
  | .cmrGt r a b => Sys2Proof.Machine.execCmrGt r a b s
  | .cmrEv r a b => Sys2Proof.Machine.execCmrEv r a b s
  | .cmrNe r a b => Sys2Proof.Machine.execCmrNe r a b s
  | .cmrLe r a b => Sys2Proof.Machine.execCmrLe r a b s
  | .cmrGe r a b => Sys2Proof.Machine.execCmrGe r a b s
  | .cmrOd r a b => Sys2Proof.Machine.execCmrOd r a b s
  | .mrFromSr r sr => Sys2Proof.Machine.execMrFromSr r sr s
  | .mrFromCr r cr => Sys2Proof.Machine.execMrFromCr r cr s
  | .mrToSr r sr => Sys2Proof.Machine.execMrToSr r sr s
  | .mrToCr r cr => Sys2Proof.Machine.execMrToCr r cr s
  | .mst r b => Sys2Proof.Machine.execMst r b s
  | .mstSet r val6 => Sys2Proof.Machine.execMstSet r val6 s
  | .mstClear r val6 => Sys2Proof.Machine.execMstClear r val6 s
  | .addImm r o l val => Sys2Proof.Machine.execAddImm r o l val s
  | .addReg r o l a b => Sys2Proof.Machine.execAddReg r o l a b s
  | .addIdx r o l dw a b => Sys2Proof.Machine.execAddIdx r o l dw a b s
  | .addOfs r o l dw ofs b => Sys2Proof.Machine.execAddOfs r o l dw ofs b s
  | .addcImm r o l val => Sys2Proof.Machine.execAddcImm r o l val s
  | .addcReg r o l a b => Sys2Proof.Machine.execAddcReg r o l a b s
  | .addcIdx r o l dw a b => Sys2Proof.Machine.execAddcIdx r o l dw a b s
  | .addcOfs r o l dw ofs b => Sys2Proof.Machine.execAddcOfs r o l dw ofs b s
  | .subImm r o l val => Sys2Proof.Machine.execSubImm r o l val s
  | .subReg r o l a b => Sys2Proof.Machine.execSubReg r o l a b s
  | .subIdx r o l dw a b => Sys2Proof.Machine.execSubIdx r o l dw a b s
  | .subOfs r o l dw ofs b => Sys2Proof.Machine.execSubOfs r o l dw ofs b s
  | .subcImm r o l val => Sys2Proof.Machine.execSubcImm r o l val s
  | .subcReg r o l a b => Sys2Proof.Machine.execSubcReg r o l a b s
  | .subcIdx r o l dw a b => Sys2Proof.Machine.execSubcIdx r o l dw a b s
  | .subcOfs r o l dw ofs b => Sys2Proof.Machine.execSubcOfs r o l dw ofs b s
  | .andImm r n c val => Sys2Proof.Machine.execAndImm r n c val s
  | .andReg r n c a b => Sys2Proof.Machine.execAndReg r n c a b s
  | .andIdx r n c dw a b => Sys2Proof.Machine.execAndIdx r n c dw a b s
  | .andOfs r n c dw ofs b => Sys2Proof.Machine.execAndOfs r n c dw ofs b s
  | .orImm r n c val => Sys2Proof.Machine.execOrImm r n c val s
  | .orReg r n c a b => Sys2Proof.Machine.execOrReg r n c a b s
  | .orIdx r n c dw a b => Sys2Proof.Machine.execOrIdx r n c dw a b s
  | .orOfs r n c dw ofs b => Sys2Proof.Machine.execOrOfs r n c dw ofs b s
  | .xorImm r n c val => Sys2Proof.Machine.execXorImm r n c val s
  | .xorReg r n c a b => Sys2Proof.Machine.execXorReg r n c a b s
  | .xorIdx r n c dw a b => Sys2Proof.Machine.execXorIdx r n c dw a b s
  | .xorOfs r n c dw ofs b => Sys2Proof.Machine.execXorOfs r n c dw ofs b s
  | .cmpImm r cond val => Sys2Proof.Machine.execCmpImm r cond val s
  | .cmpReg r cond a b => Sys2Proof.Machine.execCmpReg r cond a b s
  | .cmpIdx r cond dw a b => Sys2Proof.Machine.execCmpIdx r cond dw a b s
  | .cmpOfs r cond dw ofs b => Sys2Proof.Machine.execCmpOfs r cond dw ofs b s
  | .cmpuImm r cond val => Sys2Proof.Machine.execCmpuImm r cond val s
  | .cmpuReg r cond a b => Sys2Proof.Machine.execCmpuReg r cond a b s
  | .cmpuIdx r cond dw a b => Sys2Proof.Machine.execCmpuIdx r cond dw a b s
  | .cmpuOfs r cond dw ofs b => Sys2Proof.Machine.execCmpuOfs r cond dw ofs b s
  | .ldbIdx r m a b => Sys2Proof.Machine.execLdbIdx r m a b s
  | .ldhIdx r m a b => Sys2Proof.Machine.execLdhIdx r m a b s
  | .ldwIdx r m a b => Sys2Proof.Machine.execLdwIdx r m a b s
  | .ldbOfs r m ofs b => Sys2Proof.Machine.execLdbOfs r m ofs b s
  | .ldhOfs r m ofs b => Sys2Proof.Machine.execLdhOfs r m ofs b s
  | .ldwOfs r m ofs b => Sys2Proof.Machine.execLdwOfs r m ofs b s
  | .stb r m ofs b => Sys2Proof.Machine.execStb r m ofs b s
  | .sth r m ofs b => Sys2Proof.Machine.execSth r m ofs b s
  | .stw r m ofs b => Sys2Proof.Machine.execStw r m ofs b s
  | .ldwrIdx r a b => Sys2Proof.Machine.execLdwrIdx r a b s
  | .ldwrOfs r ofs b => Sys2Proof.Machine.execLdwrOfs r ofs b s
  | .stwc r ofs b => Sys2Proof.Machine.execStwc r ofs b s
  | .branch r ofs22 => Sys2Proof.Machine.execBranch r ofs22 s
  | .gate r ofs22 => Sys2Proof.Machine.execGate r ofs22 s
  | .br r b => Sys2Proof.Machine.execBr r b s
  | .bv a b => Sys2Proof.Machine.execBv a b s
  | .be ofs18 sreg b => Sys2Proof.Machine.execBe ofs18 sreg b s
  | .ble ofs18 sreg b => Sys2Proof.Machine.execBle ofs18 sreg b s
  | .bve a b => Sys2Proof.Machine.execBve a b s
  | .cbrEq ofs15 a b => Sys2Proof.Machine.execCbrEq ofs15 a b s
  | .cbrLt ofs15 a b => Sys2Proof.Machine.execCbrLt ofs15 a b s
  | .cbrGt ofs15 a b => Sys2Proof.Machine.execCbrGt ofs15 a b s
  | .cbrLs ofs15 a b => Sys2Proof.Machine.execCbrLs ofs15 a b s
  | .cbrNe ofs15 a b => Sys2Proof.Machine.execCbrNe ofs15 a b s
  | .cbrLe ofs15 a b => Sys2Proof.Machine.execCbrLe ofs15 a b s
  | .cbrGe ofs15 a b => Sys2Proof.Machine.execCbrGe ofs15 a b s
  | .cbrHi ofs15 a b => Sys2Proof.Machine.execCbrHi ofs15 a b s
  | .ldeb r m seg ofs b => Sys2Proof.Machine.execLdeb r m seg ofs b s
  | .ldeh r m seg ofs b => Sys2Proof.Machine.execLdeh r m seg ofs b s
  | .ldew r m seg ofs b => Sys2Proof.Machine.execLdew r m seg ofs b s
  | .ldexb r m seg a b => Sys2Proof.Machine.execLdexb r m seg a b s
  | .ldexh r m seg a b => Sys2Proof.Machine.execLdexh r m seg a b s
  | .ldexw r m seg a b => Sys2Proof.Machine.execLdexw r m seg a b s
  | .steb r m seg ofs b => Sys2Proof.Machine.execSteb r m seg ofs b s
  | .steh r m seg ofs b => Sys2Proof.Machine.execSteh r m seg ofs b s
  | .stew r m seg ofs b => Sys2Proof.Machine.execStew r m seg ofs b s
  | .ldwa r m ofs16 b => Sys2Proof.Machine.execLdwa r m ofs16 b s
  | .ldwax r m a b => Sys2Proof.Machine.execLdwax r m a b s
  | .stwa r m ofs16 b => Sys2Proof.Machine.execStwa r m ofs16 b s
  | .ldpaIdx r dw a b => Sys2Proof.Machine.execLdpaIdx r dw a b s
  | .ldpaOfs r dw ofs b => Sys2Proof.Machine.execLdpaOfs r dw ofs b s
  | .prb r m p byReg seg a b => Sys2Proof.Machine.execPrb r m p byReg seg a b s
  | .itlbA r t sreg b => Sys2Proof.Machine.execItlbA r t sreg b s
  | .itlbP r t sreg b => Sys2Proof.Machine.execItlbP r t sreg b s
  | .ptlb t sreg b => Sys2Proof.Machine.execPtlb t sreg b s
  | .pca t f sreg b => Sys2Proof.Machine.execPca t f sreg b s
  | .diag r a b => Sys2Proof.Machine.execDiag r a b s
  | .rfi => Sys2Proof.Machine.execRfi s

end Sys2Proof.Machine
end

