-- ==== Sys2Proof/Machine/Fetch.lean ====
section
/-! DEFINITION. What happens before an instruction runs: the external interrupt (60_exceptions.md R285), the fetch
(20_memory.md R63) and the words that are no instruction (30_encoding.md R121 to R123, R128). -/

namespace Sys2Proof.Machine

/-- An external interrupt is pending and enabled (60_exceptions.md R285). -/
def State.interruptTaken (s : State) : Bool := s.eBit && decide (s.extPending &&& s.readCr 23#5 ≠ 0#32)

/-- The external interrupt: trap 4, which has no parameters (60_exceptions.md R285). -/
def externalInterruptTrap : Trap := { id := .externalInterrupt, p0 := none, p1 := none, p2 := none }

/-- The checks of a fetch on an ITLB entry, in their order, and the level the instruction runs at: a fetch from a
page with PL2 above the level lowers the privilege (20_memory.md R63, 60_exceptions.md R296). -/
def State.fetchEntry (s : State) (e : TlbEntry) : Except Stop (Word × State) :=
  if pageType e.ar < 2 then raise .instrProtection
  else if arPl1 e.ar < s.level then raise .instrProtection
  else if s.pBit = true ∧ s.pidAllowed .read e.pid = false then raise .instrProtection
  else .ok (pageAddr e.ppn s.iaOfs, if s.level < arPl2 e.ar then s.setStatusBit stX true else s)

/-- The physical address of a fetch, and the state with the privilege lowered where the page asks for it
(20_memory.md R63). -/
def State.fetchAddr (s : State) : Except Stop (Word × State) :=
  if s.cBit = false then .ok (s.iaOfs, s)
  else if bypasses s.iaSeg then .ok (s.iaOfs, s)
  else match s.tlbLookup .instr s.iaSeg s.iaOfs with
    | none => raise .instrTlbMiss
    | some e => s.fetchEntry e

/-- Fetch (20_memory.md R63): the instruction word and the state it runs in. -/
def State.fetch (s : State) : Except Stop (Word × State) :=
  match s.fetchAddr with
  | .error e => .error e
  | .ok (paddr, t) =>
    match t.physRead paddr .word with
    | .error e => .error e
    | .ok v => .ok (t.fetchWord paddr v)

/-- What a word does that is no instruction of the table (30_encoding.md R121 to R123, R128; MST mode 3,
44_system_control.md R223). DESIGN CHOICE (log 27): LDEXx with a non-zero reserved field takes trap 5 while ST.D = 0
(40_memory_reference.md R144, before any other check) and is refused otherwise. -/
def rejected (w : Word) (e : Reject) (s : State) : Host.Outcome State Fault Refusal :=
  match e with
  | .unassignedOpcode => conclude s (raiseInstr .illegalInstruction w)
  | .undefinedForm => conclude s (raiseInstr .illegalInstruction w)
  | .undefinedMstMode =>
    if s.xBit then conclude s (raiseInstr .privilegedOperation w) else conclude s (raiseInstr .illegalInstruction w)
  | .reservedField => .refused (.reservedField w)
  | .reservedExtended =>
    if s.dBit then .refused (.reservedField w) else conclude s (raiseInstr .illegalInstruction w)
  | .truncated => .refused (.reservedField w)

/-- A word can be placed at a physical address: RAM, or the PDC region, where the platform places code. -/
def canPlace (paddr : Word) : Bool := regionOf paddr = .ram || regionOf paddr = .pdc

/-- The state changed where a fetch needs it so that the next step fetches at a physical address where a word can be
placed: interrupts disabled if one would be taken, code translation off if the fetch would trap, IA-OFS at the reset
entry point, untranslated, if it is outside RAM and the PDC region. -/
def State.readyToFetch (s : State) : State :=
  let s1 := if s.interruptTaken then s.setStatusBit stE false else s
  let s2 := match s1.fetchAddr with
    | .ok _ => s1
    | .error _ => s1.setStatusBit stC false
  match s2.fetchAddr with
  | .ok (paddr, _) => if canPlace paddr then s2 else (s2.setStatusBit stC false).setIaOfs Config.resetIaOfs
  | .error _ => (s2.setStatusBit stC false).setIaOfs Config.resetIaOfs

/-- The state with the word at its fetch address, the instruction side's view of it included, and, in the PDC region,
as code the platform has placed. -/
def State.placeWord (s : State) (w : Word) : State :=
  match s.fetchAddr with
  | .ok (paddr, _) =>
    { s with
      mem := s.mem.write paddr.toNat w .word
      pdcWords := if regionOf paddr = .pdc then sortedInsert id (paddr.toNat / 4) s.pdcWords else s.pdcWords
      icache := sortedErase StaleLine.line (lineOf paddr) s.icache }
  | .error _ => s

end Sys2Proof.Machine
end

