-- ==== Sys2Proof/Machine/Step.lean ====
section
/-! DEFINITION. One step of the core (60_exceptions.md R289). -/

namespace Sys2Proof.Machine

/-- The execution loop's body (60_exceptions.md R289): the external interrupt, or the fetch, the decoding and the
instruction. A meaning itself moves IA-OFS on. -/
def step (s : State) : Host.Outcome State Fault Refusal :=
  if s.interruptTaken then .next (s.takeTrap externalInterruptTrap)
  else match s.fetch with
    | .error e => conclude s (.error e)
    | .ok (w, t) =>
      match decodeWord w with
      | .ok i => exec i (t.recordFetch w)
      | .error e => rejected w e t

/-- The state with an instruction word of the opcode table stored where the next step fetches. -/
def State.withFetchWord (s : State) (nbits w : Nat) : State :=
  s.readyToFetch.placeWord (BitVec.ofNat 32 (w % 2 ^ nbits))

end Sys2Proof.Machine
end

