-- ==== Sys2Proof/Safety.lean ====
section
/-! DEFINITION. The terms the statements use: a sound state, what an instruction may change, when an access goes
through, and the instructions of one shape under one name. -/

namespace Sys2Proof.Machine

/-- What every step keeps: IA-OFS is a multiple of four (10_state.md R16); memory, the TLBs and the caches are in
canonical form, so that a tag has one entry (20_memory.md R50, R75), and so is the list of PDC words; SHAMT has five
bits (10_state.md R28). -/
structure State.Sound (s : State) : Prop where
  iaOfs_aligned : s.iaOfs &&& 3#32 = 0#32
  mem_wf : s.mem.wf
  pdc_rising : Rising id s.pdcWords
  itlb_rising : Rising entryKey s.itlb
  dtlb_rising : Rising entryKey s.dtlb
  dcache_rising : Rising DirtyLine.line s.dcache
  icache_rising : Rising StaleLine.line s.icache
  shamt_five_bits : s.cr[2] &&& 0x1F#32 = s.cr[2]

/-- What an instruction may change: the registers and status bits it writes, by number, whether it may change the
instruction segment, the TLBs, the reservation and the caches, and the bytes it stores, by first address and
count. -/
structure Writes where
  gr : List GReg := []
  sr : List SReg := []
  cr : List CReg := []
  status : List Nat := []
  iaSeg : Bool := false
  tlbs : Bool := false
  reservation : Bool := false
  caches : Bool := false
  bytes : Nat × Nat := (0, 0)

/-- From s to t nothing but what `w` lists has changed (and IA-OFS, of which it does not speak): general, segment
and control registers, status bits, IA-SEG, TLBs, reservation, caches, the interrupt input, where PDC code is placed,
and every byte of memory. -/
structure Frame (w : Writes) (s t : State) : Prop where
  gr : ∀ q, q ∉ w.gr → t.readGr q = s.readGr q
  sr : ∀ q, q ∉ w.sr → t.readSr q = s.readSr q
  cr : ∀ c, c ∉ w.cr → t.readCr c = s.readCr c
  status : ∀ k, k < 32 → k ∉ w.status → stBit t.st k = stBit s.st k
  iaSeg : w.iaSeg = false → t.iaSeg = s.iaSeg
  tlbs : w.tlbs = false → t.itlb = s.itlb ∧ t.dtlb = s.dtlb
  reservation : w.reservation = false → t.lrValid = s.lrValid ∧ t.lrAddr = s.lrAddr
  caches : w.caches = false → t.dcache = s.dcache ∧ t.icache = s.icache
  extPending : t.extPending = s.extPending
  pdcWords : t.pdcWords = s.pdcWords
  memory : ∀ a, a < w.bytes.1 ∨ w.bytes.1 + w.bytes.2 ≤ a → t.mem.readByte a = s.mem.readByte a

/-- IA-OFS goes on to the next instruction (10_state.md R16, R17). -/
def Advances (s t : State) : Prop := t.iaOfs = (s.iaOfs + 4#32) &&& 0xFFFFFFFC#32

/-- The instruction put v into GR[r] (nothing, if r is 0), went on, and changed nothing else. -/
def Result (r : GReg) (v : Word) (s t : State) : Prop :=
  t.readGr r = (if r = 0#4 then 0#32 else v) ∧ Advances s t ∧ Frame { gr := [r] } s t

/-- The physical address holds RAM, or PDC code the platform has placed (20_memory.md R57, 60_exceptions.md R301). -/
def Readable (s : State) (paddr : Word) : Prop :=
  paddr.toNat < Config.memSize ∨
    (0xF0000000 ≤ paddr.toNat ∧ paddr.toNat < 0xF1000000 ∧ paddr.toNat / 4 ∈ s.pdcWords)

/-- The physical address holds RAM (20_memory.md R57). -/
def Writable (paddr : Word) : Prop := paddr.toNat < Config.memSize

/-- A data access of `w` bytes at offset `ofs` of segment id `seg` passes every check and reaches the physical
address `paddr` (20_memory.md R53, R60 to R62, R66, R67, R71 to R73). -/
def Reaches (s : State) (kind : Access) (seg ofs : Word) (w : Width) (paddr : Word) : Prop :=
  ofs.toNat % accessBytes w = 0 ∧
    (((s.dBit = false ∨ seg = 0#32) ∧ paddr = ofs) ∨
      (s.dBit = true ∧ seg ≠ 0#32 ∧ ∃ e, s.tlbLookup .data seg ofs = some e ∧
        accessAllowed kind e.ar s.level = true ∧ (s.pBit = true → s.pidAllowed kind e.pid = true) ∧
        e.t = false ∧ (kind = .write → e.d = false) ∧ e.b = false ∧ paddr = pageAddr e.ppn ofs))

/-- The bytes of an access from address `a` on, the first the most significant, are the number `v`, zero-extended
(20_memory.md R51, R52). -/
def BytesAre (m : Memory) (a : Nat) (w : Width) (v : Word) : Prop :=
  v.toNat < 2 ^ (8 * accessBytes w) ∧
    ∀ k, k < accessBytes w → m.readByte (a + k) = BitVec.ofNat 8 (v.toNat / 2 ^ (8 * (accessBytes w - 1 - k)))

/-- A read of `w` bytes there gives `v` (20_memory.md R60). -/
def ReadGives (s : State) (seg ofs : Word) (w : Width) (v : Word) : Prop :=
  ∃ paddr, Reaches s .read seg ofs w paddr ∧ Readable s paddr ∧ BytesAre s.mem paddr.toNat w v

/-- What an access to a physical address with nothing behind it answers on the default platform (20_memory.md R57,
60_exceptions.md R301; the names are log 4's): a read where no PDC code is placed and any access between the PDC
region and the IO window fault, the IO window and a write to the PDC region are refused. -/
inductive StopsAt (s : State) (kind : Access) (paddr : Word) : Host.Outcome State Fault Refusal → Prop where
  | pdcRead : kind = .read → 0xF0000000 ≤ paddr.toNat → paddr.toNat < 0xF1000000 → paddr.toNat / 4 ∉ s.pdcWords →
      StopsAt s kind paddr (.fault (.unmapped paddr))
  | pdcWrite : kind = .write → 0xF0000000 ≤ paddr.toNat → paddr.toNat < 0xF1000000 →
      StopsAt s kind paddr (.refused (.pdcWrite paddr))
  | unassigned : 0xF1000000 ≤ paddr.toNat → paddr.toNat < 0xFF000000 →
      StopsAt s kind paddr (.fault (.unmapped paddr))
  | io : 0xFF000000 ≤ paddr.toNat → StopsAt s kind paddr (.refused (.ioAccess paddr))

/-- A fetch passes every check and reaches the physical address `paddr` (20_memory.md R63, R67). -/
def FetchReaches (s : State) (paddr : Word) : Prop :=
  ((s.cBit = false ∨ s.iaSeg = 0#32) ∧ paddr = s.iaOfs) ∨
    (s.cBit = true ∧ s.iaSeg ≠ 0#32 ∧ ∃ e, s.tlbLookup .instr s.iaSeg s.iaOfs = some e ∧ 2 ≤ pageType e.ar ∧
      s.level ≤ arPl1 e.ar ∧ (s.pBit = true → s.pidAllowed .read e.pid = true) ∧ paddr = pageAddr e.ppn s.iaOfs)

/-- The operands of a computational instruction are a and b (30_encoding.md R103). -/
def OperandsAre (s : State) (r : GReg) (x : Operand) (a b : Word) : Prop :=
  match x with
  | .imm val => a = s.readGr r ∧ b = lse val
  | .reg ra rb => a = s.readGr ra ∧ b = s.readGr rb
  | .idx dw ra rb => a = s.readGr r ∧ ∃ w, widthOf dw = some w ∧
      ReadGives s (s.logicalSeg (s.readGr rb + s.readGr ra)) (s.readGr rb + s.readGr ra) w b
  | .ofs dw disp rb => a = s.readGr r ∧ ∃ w, widthOf dw = some w ∧
      ReadGives s (s.logicalSeg (s.readGr rb + lse disp)) (s.readGr rb + lse disp) w b

/-- ADD, ADDC, SUB, SUBC. -/
inductive ArithOp where
  | add
  | addc
  | sub
  | subc
  deriving DecidableEq, Repr

/-- The instruction of an arithmetic operation in an operand form. -/
def arithInstr (op : ArithOp) (r : GReg) (o l : Bool) (x : Operand) : Instr :=
  match op, x with
  | .add, .imm val => .addImm r o l val
  | .add, .reg a b => .addReg r o l a b
  | .add, .idx dw a b => .addIdx r o l dw a b
  | .add, .ofs dw d b => .addOfs r o l dw d b
  | .addc, .imm val => .addcImm r o l val
  | .addc, .reg a b => .addcReg r o l a b
  | .addc, .idx dw a b => .addcIdx r o l dw a b
  | .addc, .ofs dw d b => .addcOfs r o l dw d b
  | .sub, .imm val => .subImm r o l val
  | .sub, .reg a b => .subReg r o l a b
  | .sub, .idx dw a b => .subIdx r o l dw a b
  | .sub, .ofs dw d b => .subOfs r o l dw d b
  | .subc, .imm val => .subcImm r o l val
  | .subc, .reg a b => .subcReg r o l a b
  | .subc, .idx dw a b => .subcIdx r o l dw a b
  | .subc, .ofs dw d b => .subcOfs r o l dw d b

/-- The exact result on unsigned operands (43_computational.md R191 to R195). -/
def exactUnsigned (op : ArithOp) (a b : Word) (cb : Bool) : Int :=
  match op with
  | .add => (a.toNat : Int) + b.toNat
  | .addc => (a.toNat : Int) + b.toNat + cb.toNat
  | .sub => (a.toNat : Int) - b.toNat
  | .subc => (a.toNat : Int) - b.toNat - cb.toNat

/-- The exact result on signed operands (43_computational.md R191 to R195). -/
def exactSigned (op : ArithOp) (a b : Word) (cb : Bool) : Int :=
  match op with
  | .add => a.toInt + b.toInt
  | .addc => a.toInt + b.toInt + cb.toNat
  | .sub => a.toInt - b.toInt
  | .subc => a.toInt - b.toInt - cb.toNat

/-- An exact value that 32 bits hold as an unsigned number. -/
def FitsUnsigned (v : Int) : Prop := 0 ≤ v ∧ v < 2 ^ 32

/-- An exact value that 32 bits hold as a signed number. -/
def FitsSigned (v : Int) : Prop := -(2 ^ 31) ≤ v ∧ v < 2 ^ 31

/-- The arithmetic overflows: unsigned with L, signed without (43_computational.md R191 to R194). -/
def Overflows (op : ArithOp) (l : Bool) (a b : Word) (cb : Bool) : Prop :=
  if l then ¬ FitsUnsigned (exactUnsigned op a b cb) else ¬ FitsSigned (exactSigned op a b cb)

/-- AND, OR, XOR. -/
inductive LogicOp where
  | and
  | or
  | xor
  deriving DecidableEq, Repr

/-- The instruction of a logical operation in an operand form. -/
def logicInstr (op : LogicOp) (r : GReg) (n c : Bool) (x : Operand) : Instr :=
  match op, x with
  | .and, .imm val => .andImm r n c val
  | .and, .reg a b => .andReg r n c a b
  | .and, .idx dw a b => .andIdx r n c dw a b
  | .and, .ofs dw d b => .andOfs r n c dw d b
  | .or, .imm val => .orImm r n c val
  | .or, .reg a b => .orReg r n c a b
  | .or, .idx dw a b => .orIdx r n c dw a b
  | .or, .ofs dw d b => .orOfs r n c dw d b
  | .xor, .imm val => .xorImm r n c val
  | .xor, .reg a b => .xorReg r n c a b
  | .xor, .idx dw a b => .xorIdx r n c dw a b
  | .xor, .ofs dw d b => .xorOfs r n c dw d b

/-- Bit k, from the right, of the result of a logical operation on two bits (43_computational.md R196 to R198). -/
def logicBit (op : LogicOp) (n c a b : Bool) : Bool :=
  let b' := b ^^ c
  (match op with
   | .and => a && b'
   | .or => a || b'
   | .xor => a ^^ b') ^^ n

/-- CMP (signed) and CMPU (unsigned) in an operand form. -/
def compareInstr (signed : Bool) (r : GReg) (cond : BitVec 2) (x : Operand) : Instr :=
  match signed, x with
  | true, .imm val => .cmpImm r cond val
  | true, .reg a b => .cmpReg r cond a b
  | true, .idx dw a b => .cmpIdx r cond dw a b
  | true, .ofs dw d b => .cmpOfs r cond dw d b
  | false, .imm val => .cmpuImm r cond val
  | false, .reg a b => .cmpuReg r cond a b
  | false, .idx dw a b => .cmpuIdx r cond dw a b
  | false, .ofs dw d b => .cmpuOfs r cond dw d b

/-- The comparison a condition number names (43_computational.md R200, R201). -/
def Compares (signed : Bool) (cond : BitVec 2) (a b : Word) : Prop :=
  (cond = 0#2 ∧ a = b) ∨ (cond = 1#2 ∧ a ≠ b) ∨
    (cond = 2#2 ∧ (if signed then a.toInt < b.toInt else a.toNat < b.toNat)) ∨
    (cond = 3#2 ∧ (if signed then a.toInt ≤ b.toInt else a.toNat ≤ b.toNat))

/-- The nine computational instructions in an operand form that reads memory, and their memory operand. -/
inductive MemOperandInstr : Instr → BitVec 2 → (State → Word) → Prop where
  | arithIdx (op : ArithOp) (r : GReg) (o l : Bool) (dw : BitVec 2) (a b : GReg) :
      MemOperandInstr (arithInstr op r o l (.idx dw a b)) dw (fun s => s.readGr b + s.readGr a)
  | arithOfs (op : ArithOp) (r : GReg) (o l : Bool) (dw : BitVec 2) (d : BitVec 12) (b : GReg) :
      MemOperandInstr (arithInstr op r o l (.ofs dw d b)) dw (fun s => s.readGr b + lse d)
  | logicIdx (op : LogicOp) (r : GReg) (n c : Bool) (dw : BitVec 2) (a b : GReg) :
      MemOperandInstr (logicInstr op r n c (.idx dw a b)) dw (fun s => s.readGr b + s.readGr a)
  | logicOfs (op : LogicOp) (r : GReg) (n c : Bool) (dw : BitVec 2) (d : BitVec 12) (b : GReg) :
      MemOperandInstr (logicInstr op r n c (.ofs dw d b)) dw (fun s => s.readGr b + lse d)
  | compareIdx (signed : Bool) (r : GReg) (cond dw : BitVec 2) (a b : GReg) :
      MemOperandInstr (compareInstr signed r cond (.idx dw a b)) dw (fun s => s.readGr b + s.readGr a)
  | compareOfs (signed : Bool) (r : GReg) (cond dw : BitVec 2) (d : BitVec 12) (b : GReg) :
      MemOperandInstr (compareInstr signed r cond (.ofs dw d b)) dw (fun s => s.readGr b + lse d)

/-- The eight conditions of CMR and of CBR as instructions, by condition number. -/
def cmrInstr (cond : BitVec 3) (r a b : GReg) : Instr :=
  match cond with
  | 0#3 => .cmrEq r a b
  | 1#3 => .cmrLt r a b
  | 2#3 => .cmrGt r a b
  | 3#3 => .cmrEv r a b
  | 4#3 => .cmrNe r a b
  | 5#3 => .cmrLe r a b
  | 6#3 => .cmrGe r a b
  | _ => .cmrOd r a b

/-- When CMR moves (43_computational.md R204, the table). -/
def CmrHolds (cond : BitVec 3) (x : Word) : Prop :=
  (cond = 0#3 ∧ x = 0#32) ∨ (cond = 1#3 ∧ x.toInt < 0) ∨ (cond = 2#3 ∧ 0 < x.toInt) ∨
    (cond = 3#3 ∧ x.toNat % 2 = 0) ∨ (cond = 4#3 ∧ x ≠ 0#32) ∨ (cond = 5#3 ∧ x.toInt ≤ 0) ∨
    (cond = 6#3 ∧ 0 ≤ x.toInt) ∨ (cond = 7#3 ∧ x.toNat % 2 = 1)

/-- CBR by condition number. -/
def cbrInstr (cond : BitVec 3) (d : BitVec 15) (a b : GReg) : Instr :=
  match cond with
  | 0#3 => .cbrEq d a b
  | 1#3 => .cbrLt d a b
  | 2#3 => .cbrGt d a b
  | 3#3 => .cbrLs d a b
  | 4#3 => .cbrNe d a b
  | 5#3 => .cbrLe d a b
  | 6#3 => .cbrGe d a b
  | _ => .cbrHi d a b

/-- When CBR branches (42_branch.md R179, the table). -/
def CbrHolds (cond : BitVec 3) (x y : Word) : Prop :=
  (cond = 0#3 ∧ x = y) ∨ (cond = 1#3 ∧ x.toInt < y.toInt) ∨ (cond = 2#3 ∧ x.toInt > y.toInt) ∨
    (cond = 3#3 ∧ x.toNat ≤ y.toNat) ∨ (cond = 4#3 ∧ x ≠ y) ∨ (cond = 5#3 ∧ x.toInt ≤ y.toInt) ∨
    (cond = 6#3 ∧ x.toInt ≥ y.toInt) ∨ (cond = 7#3 ∧ x.toNat > y.toNat)

/-- The address form of a load or store: which displacement, and whether the address is logical or extended. -/
inductive LoadForm where
  | logicalIdx (a : GReg)
  | logicalOfs (d : BitVec 12)
  | extendedOfs (seg : BitVec 2) (d : BitVec 12)
  | extendedIdx (seg : BitVec 2) (a : GReg)
  deriving DecidableEq, Repr

/-- LDx, LDEx and LDEXx by width and address form. -/
def loadInstr (w : Width) (r : GReg) (m : Bool) (b : GReg) (f : LoadForm) : Instr :=
  match w, f with
  | .byte, .logicalIdx a => .ldbIdx r m a b
  | .half, .logicalIdx a => .ldhIdx r m a b
  | .word, .logicalIdx a => .ldwIdx r m a b
  | .byte, .logicalOfs d => .ldbOfs r m d b
  | .half, .logicalOfs d => .ldhOfs r m d b
  | .word, .logicalOfs d => .ldwOfs r m d b
  | .byte, .extendedOfs seg d => .ldeb r m seg d b
  | .half, .extendedOfs seg d => .ldeh r m seg d b
  | .word, .extendedOfs seg d => .ldew r m seg d b
  | .byte, .extendedIdx seg a => .ldexb r m seg a b
  | .half, .extendedIdx seg a => .ldexh r m seg a b
  | .word, .extendedIdx seg a => .ldexw r m seg a b

/-- The displacement of an address form. -/
def LoadForm.disp (f : LoadForm) (s : State) : Word :=
  match f with
  | .logicalIdx a => s.readGr a
  | .logicalOfs d => lse d
  | .extendedOfs _ d => lse d
  | .extendedIdx _ a => s.readGr a

/-- The segment id of an access at offset x (20_memory.md R64, 40_memory_reference.md R144). -/
def LoadForm.segId (f : LoadForm) (s : State) (x : Word) : Word :=
  match f with
  | .logicalIdx _ => s.logicalSeg x
  | .logicalOfs _ => s.logicalSeg x
  | .extendedOfs seg _ => s.extSeg seg x
  | .extendedIdx seg _ => s.extSeg seg x

/-- The instruction is one that runs with data translation off too, or it is on (40_memory_reference.md R144). -/
def LoadForm.enabled (f : LoadForm) (s : State) : Prop :=
  match f with
  | .logicalIdx _ => True
  | .logicalOfs _ => True
  | .extendedOfs _ _ => s.dBit = true
  | .extendedIdx _ _ => s.dBit = true

/-- STx (no seg field) and STEx (a seg field) by width. -/
def storeInstr (w : Width) (r : GReg) (m : Bool) (b : GReg) (d : BitVec 12) (seg : Option (BitVec 2)) : Instr :=
  match w, seg with
  | .byte, none => .stb r m d b
  | .half, none => .sth r m d b
  | .word, none => .stw r m d b
  | .byte, some g => .steb r m g d b
  | .half, some g => .steh r m g d b
  | .word, some g => .stew r m g d b

/-- The segment id of a store at offset x. -/
def storeSegId (seg : Option (BitVec 2)) (s : State) (x : Word) : Word :=
  match seg with
  | none => s.logicalSeg x
  | some g => s.extSeg g x

/-- The base register after an access (40_memory_reference.md R141): with M the sum, without it what it was; GR0
stays zero. -/
def newBaseValue (m : Bool) (b : GReg) (disp : Word) (s : State) : Word :=
  if m ∧ b ≠ 0#4 then s.readGr b + disp else s.readGr b

/-- The offset of an access (40_memory_reference.md R141): the sum, but the base itself where M is set and the
displacement is not negative. -/
def accessOfs (m : Bool) (b : GReg) (disp : Word) (s : State) : Word :=
  if m = true ∧ 0 ≤ disp.toInt then s.readGr b else s.readGr b + disp

/-- A load or store, LDWR or STWC, and its data access: a read or a write of `w` bytes at offset `x` of segment id
`seg` (40_memory_reference.md R141 to R150). -/
inductive DataAccess (s : State) : Instr → Access → Width → Word → Word → Prop where
  | load (w : Width) (r : GReg) (m : Bool) (b : GReg) (f : LoadForm) (x : Word) : f.enabled s →
      x = accessOfs m b (f.disp s) s → DataAccess s (loadInstr w r m b f) .read w (f.segId s x) x
  | store (w : Width) (r : GReg) (m : Bool) (b : GReg) (d : BitVec 12) (seg : Option (BitVec 2)) (x : Word) :
      (seg = none ∨ s.dBit = true) → x = accessOfs m b (lse d) s →
      DataAccess s (storeInstr w r m b d seg) .write w (storeSegId seg s x) x
  | ldwrIdx (r a b : GReg) (x : Word) : x = s.readGr b + s.readGr a →
      DataAccess s (.ldwrIdx r a b) .read .word (s.logicalSeg x) x
  | ldwrOfs (r : GReg) (d : BitVec 12) (b : GReg) (x : Word) : x = s.readGr b + lse d →
      DataAccess s (.ldwrOfs r d b) .read .word (s.logicalSeg x) x
  | stwc (r : GReg) (d : BitVec 12) (b : GReg) (x : Word) : x = s.readGr b + lse d →
      DataAccess s (.stwc r d b) .write .word (s.logicalSeg x) x

/-- LDWA, LDWAX and STWA, and the physical address they access (40_memory_reference.md R147, R148). -/
inductive AbsoluteAccess (s : State) : Instr → Access → Word → Prop where
  | ldwa (r : GReg) (m : Bool) (d : BitVec 16) (b : GReg) :
      AbsoluteAccess s (.ldwa r m d b) .read (accessOfs m b (lse d) s)
  | ldwax (r : GReg) (m : Bool) (a b : GReg) :
      AbsoluteAccess s (.ldwax r m a b) .read (accessOfs m b (s.readGr a) s)
  | stwa (r : GReg) (m : Bool) (d : BitVec 16) (b : GReg) :
      AbsoluteAccess s (.stwa r m d b) .write (accessOfs m b (lse d) s)

/-- The instruction is privileged (60_exceptions.md R274, 44_system_control.md R221, R230). -/
def privilegedInstr : Instr → Bool
  | .mst _ _ => true
  | .mstSet _ _ => true
  | .mstClear _ _ => true
  | .ldpaIdx _ _ _ _ => true
  | .ldpaOfs _ _ _ _ => true
  | .itlbA _ _ _ _ => true
  | .itlbP _ _ _ _ => true
  | .ptlb _ _ _ => true
  | .pca _ _ _ _ => true
  | .diag _ _ _ => true
  | .rfi => true
  | .ldwa _ _ _ _ => true
  | .ldwax _ _ _ _ => true
  | .stwa _ _ _ _ => true
  | .mrToSr _ sr => decide (5 ≤ sr.toNat)
  | .mrToCr _ cr => decide (cr ≠ 2#5)
  | _ => false

/-- The instruction may store to memory: STx, STEx, STWA, STWC, and PCA, which can discard stores where the caches
are not coherent. -/
def mayStore : Instr → Bool
  | .stb _ _ _ _ => true
  | .sth _ _ _ _ => true
  | .stw _ _ _ _ => true
  | .steb _ _ _ _ _ => true
  | .steh _ _ _ _ _ => true
  | .stew _ _ _ _ _ => true
  | .stwa _ _ _ _ => true
  | .stwc _ _ _ => true
  | .pca _ _ _ _ => true
  | _ => false

/-- The next step fetches the word w and runs it in the state t. -/
def Fetches (s : State) (w : Word) (t : State) : Prop := s.interruptTaken = false ∧ s.fetch = .ok (w, t)

/-- From s the trap was taken: the saved registers, the parameters that are present, the new ST and instruction
address (60_exceptions.md R275 to R279), and nothing else changed. -/
def TookTrap (id : TrapId) (p0 p1 p2 : Option Word) (s t : State) : Prop :=
  t.readCr 17#5 = s.st ∧ t.readCr 18#5 = s.iaSeg ∧ t.readCr 19#5 = s.iaOfs ∧
    t.readCr 20#5 = p0.getD (s.readCr 20#5) ∧ t.readCr 21#5 = p1.getD (s.readCr 21#5) ∧
    t.readCr 22#5 = p2.getD (s.readCr 22#5) ∧ t.st = 0#32 ∧ t.iaSeg = 0#32 ∧
    t.iaOfs = (s.readCr 16#5 + BitVec.ofNat 32 (32 * trapNumber id)) &&& 0xFFFFFFFC#32 ∧
    Frame { cr := [17#5, 18#5, 19#5, 20#5, 21#5, 22#5], status := List.range 32, iaSeg := true } s t

/-- The traps of a data access, in their order (60_exceptions.md R282, R288, 20_memory.md R60 to R62): 17 for a
misaligned offset, with segment id 0 while translation is off; then, translated, 12 without an entry, 14 for the
access rights, 15 for the protection id, 16 for T, 16 for D on a write and for B. Each carries the instruction, the
segment id and the offset, and changes nothing else. -/
def TakesDataTraps (s : State) (i : Instr) (kind : Access) (w : Width) (seg x : Word) : Prop :=
  (x.toNat % accessBytes w ≠ 0 → ∃ t, exec i s = .next t ∧
    TookTrap .alignment (some (encode i)) (some (if s.dBit then seg else 0#32)) (some x) s t) ∧
  (x.toNat % accessBytes w = 0 → s.dBit = true → seg ≠ 0#32 →
    (s.tlbLookup .data seg x = none → ∃ t, exec i s = .next t ∧
      TookTrap .dataTlbMiss (some (encode i)) (some seg) (some x) s t) ∧
    ∀ e, s.tlbLookup .data seg x = some e →
      (accessAllowed kind e.ar s.level = false → ∃ t, exec i s = .next t ∧
        TookTrap .dataAccessRights (some (encode i)) (some seg) (some x) s t) ∧
      (accessAllowed kind e.ar s.level = true →
        (s.pBit = true ∧ s.pidAllowed kind e.pid = false → ∃ t, exec i s = .next t ∧
          TookTrap .dataProtection (some (encode i)) (some seg) (some x) s t) ∧
        (¬ (s.pBit = true ∧ s.pidAllowed kind e.pid = false) →
          (e.t = true ∨ (kind = .write ∧ e.d = true) ∨ e.b = true) → ∃ t, exec i s = .next t ∧
            TookTrap .pageReference (some (encode i)) (some seg) (some x) s t)))

end Sys2Proof.Machine
end

