-- ==== Sys2Proof/Certificates/Slice0/Obligations.lean ====
section
/-! DEFINITION. The statements for the provers. Each says its instruction's result and what it leaves alone; the
words `Result`, `Frame`, `Reaches`, `TookTrap` are those of Sys2Proof/Safety.lean. -/

open Sys2Proof Sys2Proof.Machine

/-- The state after reset: the values 10_state.md section 7 gives, which are the spec's own decision D30 (log 19). -/
def Obligations.ResetState : Prop :=
  State.reset.readGr 0#4 = 0#32 ∧ State.reset.iaSeg = 0#32 ∧ State.reset.iaOfs = 0xF0000000#32 ∧
    State.reset.st = 0#32 ∧ State.reset.itlb = [] ∧ State.reset.dtlb = [] ∧ State.reset.dcache = [] ∧
    State.reset.icache = [] ∧ State.reset.lrValid = false

/-- The reset state meets the invariant. -/
def Obligations.ResetSound : Prop := State.reset.Sound

/-- Every step keeps the invariant: IA-OFS aligned (the spec's decision D5), memory, TLBs and caches canonical,
SHAMT of five bits. -/
def Obligations.StepKeepsSound : Prop := ∀ s t : State, s.Sound → step s = .next t → t.Sound

/-- Every well-formed instruction is what its word decodes to. -/
def Obligations.DecodeEncode : Prop := ∀ i : Instr, i.wf = true → decodeWord (encode i) = .ok i

/-- Every word that decodes is the word of its instruction, which is well formed: no two words share an instruction,
and the word a trap reports is the word fetched (the spec's decision D6, RESERVED_NONZERO = refuse, log 5). -/
def Obligations.EncodeDecode : Prop :=
  ∀ (w : Word) (i : Instr), decodeWord w = .ok i → i.wf = true ∧ encode i = w

/-- A few words written out from the encodings of the spec, and the instructions they stand for. -/
def Obligations.DecodedWords : Prop :=
  decodeWord 0x06848D15#32 = .ok (.ldil 10#4 0x48D15#22) ∧
    decodeWord 0x404003E8#32 = .ok (.addImm 1#4 false false 0x3E8#18) ∧
    decodeWord 0x68CE0105#32 = .ok (.ldwOfs 3#4 false 0x010#12 5#4) ∧
    decodeWord 0x83800020#32 = .ok (.branch 14#4 0x20#22) ∧
    decodeWord 0xED200015#32 = .ok (.itlbA 4#4 true 1#4 5#4) ∧
    decodeWord 0xFC000000#32 = .ok .rfi

/-- A step runs the decoded instruction: in the state the fetch gives, and, without code translation or in segment
zero (the spec's decision D20), in the very state, from the four bytes memory holds at IA-OFS. That the word run is
memory's is the model's choice of coherent caches (CACHE_MODEL = coherent, log 8), and that the step keeps nothing of
the word its choice of RESERVED_NONZERO = refuse (log 5). A meaning itself moves IA-OFS on. -/
def Obligations.StepRunsInstruction : Prop :=
  (∀ (s t : State) (w : Word) (i : Instr), Fetches s w t → decodeWord w = .ok i → step s = exec i t) ∧
    ∀ (s : State) (i : Instr), s.interruptTaken = false → (s.cBit = false ∨ s.iaSeg = 0#32) → Readable s s.iaOfs →
      decode [s.mem.readByte s.iaOfs.toNat, s.mem.readByte (s.iaOfs.toNat + 1), s.mem.readByte (s.iaOfs.toNat + 2),
        s.mem.readByte (s.iaOfs.toNat + 3)] = .ok (i, []) →
      step s = exec i s

/-- A translated fetch: from an executable page that the level and the protection id allow, the word memory holds at the
page's address, run at the lower of the two levels (automatic demotion, the spec's decision D20). That the word fetched
is memory's is the model's choice of coherent caches (CACHE_MODEL = coherent, log 8). -/
def Obligations.TranslatedFetch : Prop :=
  ∀ (s : State) (e : TlbEntry), s.interruptTaken = false → s.cBit = true → s.iaSeg ≠ 0#32 →
    s.tlbLookup .instr s.iaSeg s.iaOfs = some e → 2 ≤ pageType e.ar → s.level ≤ arPl1 e.ar →
    (s.pBit = true → s.pidAllowed .read e.pid = true) → Readable s (pageAddr e.ppn s.iaOfs) →
    ∃ w t, BytesAre s.mem (pageAddr e.ppn s.iaOfs).toNat .word w ∧ Fetches s w t ∧
      t.level = max s.level (arPl2 e.ar) ∧ t.iaOfs = s.iaOfs ∧ Frame { status := [1] } s t

/-- A translated fetch that traps: 9 without an entry; 11 for a page that is not executable, a level the page
excludes, or, with the check on, no matching protection id. Neither has parameters. -/
def Obligations.FetchTraps : Prop :=
  ∀ s : State, s.interruptTaken = false → s.cBit = true → s.iaSeg ≠ 0#32 →
    (s.tlbLookup .instr s.iaSeg s.iaOfs = none →
      ∃ t, step s = .next t ∧ TookTrap .instrTlbMiss none none none s t) ∧
    ∀ e, s.tlbLookup .instr s.iaSeg s.iaOfs = some e →
      (pageType e.ar < 2 ∨ arPl1 e.ar < s.level ∨ (s.pBit = true ∧ s.pidAllowed .read e.pid = false)) →
      ∃ t, step s = .next t ∧ TookTrap .instrProtection none none none s t

/-- The external interrupt (the spec's model of it, decision D25): taken before the fetch when ST.E is set and an
unmasked request is pending. -/
def Obligations.ExternalInterrupt : Prop :=
  ∀ s : State, stBit s.st 31 = true → s.extPending &&& s.readCr 23#5 ≠ 0#32 →
    ∃ t, step s = .next t ∧ TookTrap .externalInterrupt none none none s t

/-- Taking any trap: what is saved where, the parameters that are present, ST and IA-SEG zero, the handler's
address, and nothing else (the spec's decision D22 on the details). -/
def Obligations.TrapEntry : Prop :=
  ∀ (s : State) (tr : Trap), TookTrap tr.id tr.p0 tr.p1 tr.p2 s (s.takeTrap tr)

/-- Words that are no instruction: unassigned opcodes (the spec's decision D7) and undefined forms (R123; D12 for
some) take trap 5 with the word, whatever its reserved fields are (the model's choice, log 27); MST mode 3 takes trap
6 at user level, else trap 5. -/
def Obligations.IllegalWords : Prop :=
  ∀ (s t : State) (w : Word), Fetches s w t →
    ((fld w 0 6 ∈ [0x0C#6, 0x0D#6, 0x0E#6, 0x0F#6, 0x19#6, 0x1E#6, 0x1F#6, 0x28#6, 0x29#6, 0x2A#6, 0x2B#6, 0x2C#6,
        0x2D#6, 0x2E#6, 0x2F#6, 0x34#6, 0x35#6, 0x36#6, 0x37#6, 0x38#6] ∨
      (fld w 0 6 ∈ [0x1A#6, 0x1B#6] ∧ (fld w 12 2 ∈ [0#2, 1#2] ∨ fld w 14 2 = 3#2)) ∨
      (fld w 0 6 = 0x1B#6 ∧ fld w 12 2 = 2#2) ∨
      (fld w 0 6 = 0x1C#6 ∧ (fld w 12 2 ∈ [0#2, 1#2] ∨ fld w 14 2 ≠ 2#2)) ∨
      (fld w 0 6 = 0x1D#6 ∧ (fld w 12 2 ≠ 3#2 ∨ fld w 14 2 ≠ 2#2)) ∨
      (fld w 0 6 ∈ [0x30#6, 0x31#6] ∧ fld w 14 2 = 3#2) ∨
      (fld w 0 6 ∈ [0x31#6, 0x33#6] ∧ bit w 10 = true) ∨
      (fld w 0 6 = 0x03#6 ∧ fld w 12 2 = 1#2) ∨
      (fld w 0 6 = 0x39#6 ∧ fld w 12 2 ∈ [0#2, 1#2])) →
      ∃ u, step s = .next u ∧ TookTrap .illegalInstruction (some w) none none t u) ∧
    (fld w 0 6 = 0x0B#6 → fld w 10 2 = 3#2 →
      ∃ u, step s = .next u ∧
        TookTrap (if t.xBit then .privilegedOperation else .illegalInstruction) (some w) none none t u)

/-- A word with a non-zero reserved field is refused by name (the spec's decision D6, RESERVED_NONZERO = refuse):
here those of BR, BRK, RFI, the segment register field of BE, and, with data translation on, LDEXx. -/
def Obligations.ReservedFieldRefused : Prop :=
  ∀ (s t : State) (w : Word), Fetches s w t →
    ((fld w 0 6 = 0x22#6 ∧ fld w 10 18 ≠ 0#18) ∨ (fld w 0 6 = 0x00#6 ∧ fld w 10 6 ≠ 0#6) ∨
      (fld w 0 6 = 0x3F#6 ∧ fld w 6 26 ≠ 0#26) ∨ (fld w 0 6 = 0x24#6 ∧ bit w 24 = true) ∨
      (fld w 0 6 = 0x30#6 ∧ bit w 10 = true ∧ fld w 14 2 ≠ 3#2 ∧ fld w 16 8 ≠ 0#8 ∧ t.dBit = true)) →
    step s = .refused (.reservedField w)

/-- LDIL: its word, and its result. -/
def Obligations.LdilResult : Prop :=
  ∀ (r : GReg) (v : BitVec 22) (s : State), encode (.ldil r v) = 0x01#6 ++ r ++ v ∧
    ∃ t, exec (.ldil r v) s = .next t ∧ Result r (v ++ 0#10) s t

/-- ADDIL: its word, and its result, which goes to GR1. -/
def Obligations.AddilResult : Prop :=
  ∀ (r : GReg) (v : BitVec 22) (s : State), encode (.addil r v) = 0x02#6 ++ r ++ v ∧
    ∃ t, exec (.addil r v) s = .next t ∧ Result 1#4 (s.readGr r + (v ++ 0#10)) s t

/-- LDO in its three modes: an immediate or an offset, without an access to memory (the spec's decision D9). -/
def Obligations.LdoResult : Prop :=
  ∀ (r a b : GReg) (dw : BitVec 2) (v : BitVec 18) (d : BitVec 12) (s : State),
    (∃ t, exec (.ldoImm r v) s = .next t ∧ Result r (lse v) s t) ∧
    (∃ t, exec (.ldoIdx r dw a b) s = .next t ∧ Result r (s.readGr b + s.readGr a) s t) ∧
    ∃ t, exec (.ldoOfs r dw d b) s = .next t ∧ Result r (s.readGr b + lse d) s t

/-- ADD, ADDC, SUB, SUBC in all four operand modes, where no overflow traps (the spec's decision D16 on carry,
borrow and L): the result modulo 2^32; with L = 0 ST.CB is the carry or borrow, with L = 1 it is kept; nothing else
changes. -/
def Obligations.ArithResult : Prop :=
  ∀ (op : ArithOp) (r : GReg) (o l : Bool) (x : Operand) (a b : Word) (s : State), OperandsAre s r x a b →
    ¬ (o = true ∧ Overflows op l a b s.cbBit) →
    ∃ t, exec (arithInstr op r o l x) s = .next t ∧
      t.readGr r = (if r = 0#4 then 0#32 else BitVec.ofInt 32 (exactUnsigned op a b s.cbBit)) ∧
      (t.cbBit = true ↔ if l then s.cbBit = true else ¬ FitsUnsigned (exactUnsigned op a b s.cbBit)) ∧
      Advances s t ∧ Frame { gr := [r], status := [12] } s t

/-- With O an overflow, signed or with L unsigned, takes trap 8, whatever the target register. -/
def Obligations.ArithOverflowTrap : Prop :=
  ∀ (op : ArithOp) (r : GReg) (l : Bool) (x : Operand) (a b : Word) (s : State), OperandsAre s r x a b →
    Overflows op l a b s.cbBit →
    ∃ t, exec (arithInstr op r true l x) s = .next t ∧
      TookTrap .overflow (some (encode (arithInstr op r true l x))) none none s t

/-- SHLA: the shifted register plus the other one; with O a shift or a sum out of the signed (L = 0) or unsigned
(L = 1) range takes trap 8 (the spec's decision D17). -/
def Obligations.ShlaResult : Prop :=
  ∀ (r a b : GReg) (l o : Bool) (sa : BitVec 2) (s : State) (p q : Int),
    p = (if l then ((s.readGr a).toNat : Int) else (s.readGr a).toInt) * 2 ^ sa.toNat →
    q = (if l then ((s.readGr b).toNat : Int) else (s.readGr b).toInt) →
    (o = false ∨ (if l then FitsUnsigned p ∧ FitsUnsigned (p + q) else FitsSigned p ∧ FitsSigned (p + q)) →
      ∃ t, exec (.shla r l o sa a b) s = .next t ∧ Result r (BitVec.ofInt 32 (p + q)) s t) ∧
    (o = true → ¬ (if l then FitsUnsigned p ∧ FitsUnsigned (p + q) else FitsSigned p ∧ FitsSigned (p + q)) →
      ∃ t, exec (.shla r l o sa a b) s = .next t ∧
        TookTrap .overflow (some (encode (.shla r l o sa a b))) none none s t)

/-- AND, OR, XOR in all four operand modes: each bit of the result, C complementing the second operand and N the
result; no flag changes. -/
def Obligations.LogicResult : Prop :=
  ∀ (op : LogicOp) (r : GReg) (n c : Bool) (x : Operand) (a b : Word) (s : State), OperandsAre s r x a b →
    ∃ t, exec (logicInstr op r n c x) s = .next t ∧
      (∀ k, k < 32 → (t.readGr r).getLsbD k =
        if r = 0#4 then false else logicBit op n c (a.getLsbD k) (b.getLsbD k)) ∧
      Advances s t ∧ Frame { gr := [r] } s t

/-- CMP and CMPU in all four operand modes: one where the condition holds, else zero; no flag changes. -/
def Obligations.CompareResult : Prop :=
  ∀ (signed : Bool) (r : GReg) (cond : BitVec 2) (x : Operand) (a b : Word) (s : State), OperandsAre s r x a b →
    ∃ t, exec (compareInstr signed r cond x) s = .next t ∧
      (Compares signed cond a b → Result r 1#32 s t) ∧ (¬ Compares signed cond a b → Result r 0#32 s t)

/-- CMR under its eight conditions: its word; GR[a] goes to GR[r] where the condition holds of GR[b], else only
IA-OFS changes. -/
def Obligations.CmrResult : Prop :=
  ∀ (cond : BitVec 3) (r a b : GReg) (s : State),
    encode (cmrInstr cond r a b) = 0x09#6 ++ r ++ cond ++ 0#11 ++ a ++ b ∧
    ∃ t, exec (cmrInstr cond r a b) s = .next t ∧
      (CmrHolds cond (s.readGr b) → Result r (s.readGr a) s t) ∧
      (¬ CmrHolds cond (s.readGr b) → Advances s t ∧ Frame {} s t)

/-- The memory operand of a computational instruction: dw = 3 takes trap 5 (the spec's decision D12); else the read of
the operand takes the traps of a data access, 17, 12, 14, 15, 16, in their order (D23, D26). -/
def Obligations.OperandTraps : Prop :=
  ∀ (i : Instr) (dw : BitVec 2) (adr : State → Word) (s : State), MemOperandInstr i dw adr →
    (dw = 3#2 → ∃ t, exec i s = .next t ∧ TookTrap .illegalInstruction (some (encode i)) none none s t) ∧
    ∀ w, widthOf dw = some w → TakesDataTraps s i .read w (s.logicalSeg (adr s)) (adr s)

/-- EXTR: bit k, from the right, of the result is bit k + sh of the source inside the field and, outside it, the
field's leftmost bit where S asks for it, else 0; sh is the field of the word or, with A, SHAMT (the spec's decision
D18; BITF_LEN0 = empty). -/
def Obligations.ExtrResult : Prop :=
  ∀ (r b : GReg) (sg av : Bool) (len pos : BitVec 5) (s : State) (sh : Nat),
    sh = (if av then (s.readCr 2#5).toNat else pos.toNat) → sh + len.toNat ≤ 32 →
    ∃ t, exec (.extr r sg av len pos b) s = .next t ∧
      (∀ k, k < 32 → (t.readGr r).getLsbD k =
        if r = 0#4 then false
        else if k < len.toNat then (s.readGr b).getLsbD (k + sh)
        else sg && decide (0 < len.toNat) && (s.readGr b).getLsbD (sh + len.toNat - 1)) ∧
      Advances s t ∧ Frame { gr := [r] } s t

/-- DEP of a register and of an immediate: bit k of the result is the source's inside the field and, outside it, the
target's, or 0 with Z; an empty field leaves the target as it was, with Z too (the spec's decision D18 and
93_implementation_defined.md U9; to follow them against R210's pseudocode is the model's choice, log 26). -/
def Obligations.DepResult : Prop :=
  ∀ (r : GReg) (z av : Bool) (len pos : BitVec 5) (s : State) (sh : Nat) (i : Instr) (src : Word),
    sh = (if av then (s.readCr 2#5).toNat else pos.toNat) → sh + len.toNat ≤ 32 →
    ((∃ b, i = .depReg r z av len pos b ∧ src = s.readGr b) ∨
      (∃ v : BitVec 4, i = .depImm r z av len pos v ∧ src = BitVec.ofNat 32 v.toNat)) →
    ∃ t, exec i s = .next t ∧
      (∀ k, k < 32 → (t.readGr r).getLsbD k =
        if r = 0#4 then false
        else if sh ≤ k ∧ k < sh + len.toNat then src.getLsbD (k - sh)
        else !(z && decide (0 < len.toNat)) && (s.readGr r).getLsbD k) ∧
      Advances s t ∧ Frame { gr := [r] } s t

/-- EXTR and DEP stop by name on a field that leaves the word (the spec's decision D18). -/
def Obligations.BitFieldStops : Prop :=
  ∀ (r b : GReg) (x av : Bool) (len pos : BitVec 5) (v : BitVec 4) (s : State),
    32 < (if av then (s.readCr 2#5).toNat else pos.toNat) + len.toNat →
    exec (.extr r x av len pos b) s = .refused .bitFieldBeyondWord ∧
      exec (.depReg r x av len pos b) s = .refused .bitFieldBeyondWord ∧
      exec (.depImm r x av len pos v) s = .refused .bitFieldBeyondWord

/-- DSR: its word, and the lower 32 bits of the two registers, b left and a right, shifted right. -/
def Obligations.DsrResult : Prop :=
  ∀ (r a b : GReg) (av : Bool) (sh : BitVec 5) (s : State) (n : Nat),
    n = (if av then (s.readCr 2#5).toNat else sh.toNat) →
    encode (.dsr r av sh a b) = 0x07#6 ++ r ++ 0#1 ++ BitVec.ofBool av ++ 0#7 ++ sh ++ a ++ b ∧
    ∃ t, exec (.dsr r av sh a b) s = .next t ∧
      (∀ k, k < 32 → (t.readGr r).getLsbD k =
        if r = 0#4 then false
        else if k + n < 32 then (s.readGr a).getLsbD (k + n) else (s.readGr b).getLsbD (k + n - 32)) ∧
      Advances s t ∧ Frame { gr := [r] } s t

/-- LSID: its word, and the content of the segment register, SR4 to SR7, that the two leftmost bits of GR[b] name,
at any level. -/
def Obligations.LsidResult : Prop :=
  ∀ (r b : GReg) (s : State), encode (.lsid r b) = 0x04#6 ++ r ++ 0#18 ++ b ∧
    ∃ t, exec (.lsid r b) s = .next t ∧
      Result r (s.readSr (BitVec.ofNat 3 (4 + (s.readGr b).toNat / 2 ^ 30))) s t

/-- Loads, logical and extended, of every width and displacement form (base modification: the spec's decision D13):
where the access goes through, the bytes at the physical address as a zero-extended big-endian number, the modified
base (the loaded value wins), nothing else. -/
def Obligations.LoadResult : Prop :=
  ∀ (w : Width) (r : GReg) (m : Bool) (b : GReg) (f : LoadForm) (s : State) (x v : Word), f.enabled s →
    x = accessOfs m b (f.disp s) s → ReadGives s (f.segId s x) x w v →
    ∃ t, exec (loadInstr w r m b f) s = .next t ∧ t.readGr r = (if r = 0#4 then 0#32 else v) ∧
      (b ≠ r → t.readGr b = newBaseValue m b (f.disp s) s) ∧ Advances s t ∧
      Frame { gr := if m then [r, b] else [r] } s t

/-- Stores, logical and extended, of every width: where the access goes through, the rightmost bytes of GR[r] in
big-endian order at the physical address, the modified base, the reservation ended where the bytes overlap it;
every other byte and register as before. -/
def Obligations.StoreResult : Prop :=
  ∀ (w : Width) (r : GReg) (m : Bool) (b : GReg) (d : BitVec 12) (seg : Option (BitVec 2)) (s : State)
    (x paddr : Word), (seg = none ∨ s.dBit = true) → x = accessOfs m b (lse d) s →
    Reaches s .write (storeSegId seg s x) x w paddr → Writable paddr →
    ∃ t, exec (storeInstr w r m b d seg) s = .next t ∧
      (∀ k, k < accessBytes w → t.mem.readByte (paddr.toNat + k) =
        BitVec.ofNat 8 ((s.readGr r).toNat / 2 ^ (8 * (accessBytes w - 1 - k)))) ∧
      t.readGr b = newBaseValue m b (lse d) s ∧
      (t.lrValid = true ↔ s.lrValid = true ∧
        ¬ (paddr.toNat < s.lrAddr.toNat + 4 ∧ s.lrAddr.toNat < paddr.toNat + accessBytes w)) ∧
      t.lrAddr = s.lrAddr ∧ Advances s t ∧
      Frame { gr := if m then [b] else [], reservation := true, caches := true,
              bytes := (paddr.toNat, accessBytes w) } s t

/-- The data traps of loads and stores, of LDWR and of STWC, whether or not it holds the reservation (the spec's
decision D15), and their order (D23): 17, 12, 14, 15, 16 for T, 16 for D on a write and for B (D26). -/
def Obligations.DataTraps : Prop :=
  ∀ (s : State) (i : Instr) (kind : Access) (w : Width) (seg x : Word), DataAccess s i kind w seg x →
    TakesDataTraps s i kind w seg x

/-- Extended loads and stores with data translation off take trap 5 before any other check (the spec's decision
D12), and so does every word of their opcodes, one with a non-zero reserved field too (the model's choice, log 27). -/
def Obligations.ExtendedNeedsTranslation : Prop :=
  (∀ (w : Width) (r : GReg) (m : Bool) (b : GReg) (seg : BitVec 2) (d : BitVec 12) (a : GReg) (s : State) (i : Instr),
    s.dBit = false →
    (i = loadInstr w r m b (.extendedOfs seg d) ∨ i = loadInstr w r m b (.extendedIdx seg a) ∨
      i = storeInstr w r m b d (some seg)) →
    ∃ t, exec i s = .next t ∧ TookTrap .illegalInstruction (some (encode i)) none none s t) ∧
    ∀ (s t : State) (w : Word), Fetches s w t → t.dBit = false → fld w 0 6 ∈ [0x30#6, 0x31#6] →
      ∃ u, step s = .next u ∧ TookTrap .illegalInstruction (some w) none none t u

/-- Every access to a physical address with nothing behind it stops by name (the spec's decision D31, UNMAPPED =
refuse, default platform; the names are log 4's): of loads and stores, logical and extended, of LDWR, of STWC with the
reservation, of a memory operand, of LDWA, LDWAX and STWA at the privileged level, and the fetch. -/
def Obligations.PlatformStops : Prop :=
  (∀ (s : State) (i : Instr) (kind : Access) (w : Width) (seg x paddr : Word) (o : Host.Outcome State Fault Refusal),
    (DataAccess s i kind w seg x ∨ ∃ dw adr, MemOperandInstr i dw adr ∧ widthOf dw = some w ∧ kind = .read ∧
      seg = s.logicalSeg (adr s) ∧ x = adr s) →
    ((∃ r d b, i = .stwc r d b) → s.lrValid = true ∧ s.lrAddr = paddr) → Reaches s kind seg x w paddr →
    StopsAt s kind paddr o → exec i s = o) ∧
  (∀ (s : State) (i : Instr) (kind : Access) (x : Word) (o : Host.Outcome State Fault Refusal),
    AbsoluteAccess s i kind x → s.xBit = false → x.toNat % 4 = 0 → StopsAt s kind x o → exec i s = o) ∧
  ∀ (s : State) (paddr : Word) (o : Host.Outcome State Fault Refusal), s.interruptTaken = false →
    FetchReaches s paddr → StopsAt s .read paddr o → step s = o

/-- LDWA and LDWAX at the privileged level: the word at the physical address whatever ST.D is, the modified base;
a misaligned address takes trap 17 with segment id 0 (the spec's decision D14 on the offset width). -/
def Obligations.LdwaResult : Prop :=
  ∀ (r a b : GReg) (m : Bool) (d : BitVec 16) (s : State) (i : Instr) (disp x : Word), s.xBit = false →
    ((i = .ldwa r m d b ∧ disp = lse d) ∨ (i = .ldwax r m a b ∧ disp = s.readGr a)) → x = accessOfs m b disp s →
    (x.toNat % 4 = 0 → Readable s x →
      ∃ t v, exec i s = .next t ∧ BytesAre s.mem x.toNat .word v ∧ t.readGr r = (if r = 0#4 then 0#32 else v) ∧
        (b ≠ r → t.readGr b = newBaseValue m b disp s) ∧ Advances s t ∧
        Frame { gr := if m then [r, b] else [r] } s t) ∧
    (x.toNat % 4 ≠ 0 → ∃ t, exec i s = .next t ∧
      TookTrap .alignment (some (encode i)) (some 0#32) (some x) s t)

/-- STWA at the privileged level: the four bytes at the physical address, the modified base, the reservation ended
where they overlap it; a misaligned address takes trap 17 with segment id 0. -/
def Obligations.StwaResult : Prop :=
  ∀ (r b : GReg) (m : Bool) (d : BitVec 16) (s : State) (x : Word), s.xBit = false → x = accessOfs m b (lse d) s →
    (x.toNat % 4 = 0 → Writable x →
      ∃ t, exec (.stwa r m d b) s = .next t ∧ BytesAre t.mem x.toNat .word (s.readGr r) ∧
        t.readGr b = newBaseValue m b (lse d) s ∧
        (t.lrValid = true ↔ s.lrValid = true ∧
          ¬ (x.toNat < s.lrAddr.toNat + 4 ∧ s.lrAddr.toNat < x.toNat + 4)) ∧ t.lrAddr = s.lrAddr ∧ Advances s t ∧
        Frame { gr := if m then [b] else [], reservation := true, caches := true, bytes := (x.toNat, 4) } s t) ∧
    (x.toNat % 4 ≠ 0 → ∃ t, exec (.stwa r m d b) s = .next t ∧
      TookTrap .alignment (some (encode (.stwa r m d b))) (some 0#32) (some x) s t)

/-- LDWR in both modes: the word, and the reservation of its physical address (the spec's decision D15). -/
def Obligations.LdwrResult : Prop :=
  ∀ (r a b : GReg) (d : BitVec 12) (s : State) (i : Instr) (x paddr : Word),
    ((i = .ldwrIdx r a b ∧ x = s.readGr b + s.readGr a) ∨ (i = .ldwrOfs r d b ∧ x = s.readGr b + lse d)) →
    Reaches s .read (s.logicalSeg x) x .word paddr → Readable s paddr →
    ∃ t v, exec i s = .next t ∧ BytesAre s.mem paddr.toNat .word v ∧ t.readGr r = (if r = 0#4 then 0#32 else v) ∧
      t.lrValid = true ∧ t.lrAddr = paddr ∧ Advances s t ∧ Frame { gr := [r], reservation := true } s t

/-- STWC where every write check passes (the spec's decision D15; no reservation is lost without a cause, the model's
choice of R86's deterministic instance, log 7): with the reservation of that word the word is stored and GR[r] is 0,
else nothing is stored and GR[r] is 1; the reservation ends either way. -/
def Obligations.StwcResult : Prop :=
  ∀ (r b : GReg) (d : BitVec 12) (s : State) (x paddr : Word), x = s.readGr b + lse d →
    Reaches s .write (s.logicalSeg x) x .word paddr →
    (s.lrValid = true → s.lrAddr = paddr → Writable paddr →
      ∃ t, exec (.stwc r d b) s = .next t ∧ t.readGr r = 0#32 ∧ BytesAre t.mem paddr.toNat .word (s.readGr r) ∧
        t.lrValid = false ∧ Advances s t ∧
        Frame { gr := [r], reservation := true, caches := true, bytes := (paddr.toNat, 4) } s t) ∧
    (¬ (s.lrValid = true ∧ s.lrAddr = paddr) →
      ∃ t, exec (.stwc r d b) s = .next t ∧ t.readGr r = (if r = 0#4 then 0#32 else 1#32) ∧ t.lrValid = false ∧
        Advances s t ∧ Frame { gr := [r], reservation := true } s t)

/-- B: its word; the target relative to IA-OFS, the link in GR[r]. -/
def Obligations.BranchResult : Prop :=
  ∀ (r : GReg) (d : BitVec 22) (s : State), encode (.branch r d) = 0x20#6 ++ r ++ d ∧
    ∃ t, exec (.branch r d) s = .next t ∧ t.iaOfs = (s.iaOfs + 4#32 * lse d) &&& 0xFFFFFFFC#32 ∧
      t.readGr r = (if r = 0#4 then 0#32 else s.iaOfs + 4#32) ∧ Frame { gr := [r] } s t

/-- BR: its word; the target relative to IA-OFS by the old GR[b] words, the link in GR[r]. -/
def Obligations.BrResult : Prop :=
  ∀ (r b : GReg) (s : State), encode (.br r b) = 0x22#6 ++ r ++ 0#18 ++ b ∧
    ∃ t, exec (.br r b) s = .next t ∧ t.iaOfs = (s.iaOfs + 4#32 * s.readGr b) &&& 0xFFFFFFFC#32 ∧
      t.readGr r = (if r = 0#4 then 0#32 else s.iaOfs + 4#32) ∧ Frame { gr := [r] } s t

/-- BV: its word; the target GR[b] plus GR[a] words, its two rightmost bits discarded; no register is written. -/
def Obligations.BvResult : Prop :=
  ∀ (a b : GReg) (s : State), encode (.bv a b) = 0x23#6 ++ 0#18 ++ a ++ b ∧
    ∃ t, exec (.bv a b) s = .next t ∧ t.iaOfs = (s.readGr b + 4#32 * s.readGr a) &&& 0xFFFFFFFC#32 ∧ Frame {} s t

/-- BE, BVE: the target, and with code translation on the segment id of the register named or selected; with it off
IA-SEG is kept (the spec's decision D38). -/
def Obligations.ExternalBranchResult : Prop :=
  ∀ (sr : SReg) (a b : GReg) (d : BitVec 18) (s : State),
    (∃ t, exec (.be d (sr.setWidth 4) b) s = .next t ∧
      t.iaOfs = (s.readGr b + 4#32 * lse d) &&& 0xFFFFFFFC#32 ∧
      t.iaSeg = (if s.cBit then s.readSr sr else s.iaSeg) ∧ Frame { iaSeg := true } s t) ∧
    ∃ t, exec (.bve a b) s = .next t ∧ t.iaOfs = (s.readGr b + 4#32 * s.readGr a) &&& 0xFFFFFFFC#32 ∧
      t.iaSeg = (if s.cBit then s.readSr (BitVec.ofNat 3 (4 + (s.readGr b).toNat / 2 ^ 30)) else s.iaSeg) ∧
      Frame { iaSeg := true } s t

/-- BLE: as BE, from the old SR[a] and GR[b], and the link in SR0 and GR1, with code translation on or off. -/
def Obligations.BleResult : Prop :=
  ∀ (sr : SReg) (b : GReg) (d : BitVec 18) (s : State),
    ∃ t, exec (.ble d (sr.setWidth 4) b) s = .next t ∧
      t.iaOfs = (s.readGr b + 4#32 * lse d) &&& 0xFFFFFFFC#32 ∧
      t.iaSeg = (if s.cBit then s.readSr sr else s.iaSeg) ∧ t.readSr 0#3 = s.iaSeg ∧
      t.readGr 1#4 = s.iaOfs + 4#32 ∧ Frame { gr := [1#4], sr := [0#3], iaSeg := true } s t

/-- GATE (the spec's decision D19): the old level in GR[r]; the new level privileged with code translation off, the
lower number of the level and PL2 on a gateway page, else unchanged. -/
def Obligations.GateResult : Prop :=
  ∀ (r : GReg) (d : BitVec 22) (s : State) (new : Nat),
    ((s.cBit = false ∧ new = 0) ∨ (s.cBit = true ∧ s.iaSeg = 0#32 ∧ new = s.level) ∨
      (s.cBit = true ∧ s.iaSeg ≠ 0#32 ∧ ∃ e, s.tlbLookup .instr s.iaSeg s.iaOfs = some e ∧
        new = if pageType e.ar = 3 then min s.level (arPl2 e.ar) else s.level)) →
    ∃ t, exec (.gate r d) s = .next t ∧ t.iaOfs = (s.iaOfs + 4#32 * lse d) &&& 0xFFFFFFFC#32 ∧
      t.readGr r = (if r = 0#4 then 0#32 else BitVec.ofNat 32 s.level) ∧ t.level = new ∧
      Frame { gr := [r], status := [1] } s t

/-- CBR under its eight conditions: its word; the target where the condition holds, else the next instruction;
nothing else changes. -/
def Obligations.CbrResult : Prop :=
  ∀ (cond : BitVec 3) (d : BitVec 15) (a b : GReg) (s : State),
    encode (cbrInstr cond d a b) = 0x27#6 ++ cond ++ d ++ a ++ b ∧
    ∃ t, exec (cbrInstr cond d a b) s = .next t ∧ Frame {} s t ∧
      (CbrHolds cond (s.readGr a) (s.readGr b) → t.iaOfs = (s.iaOfs + 4#32 * lse d) &&& 0xFFFFFFFC#32) ∧
      (¬ CbrHolds cond (s.readGr a) (s.readGr b) → Advances s t)

/-- MR: reads of segment and control registers at any level; writes of SR0 to SR4 and SHAMT at any level and of the
others at the privileged level (the spec's decision D21), SHAMT keeping five bits and a segment register all 32 (D3). -/
def Obligations.MrResult : Prop :=
  ∀ (r : GReg) (sr : SReg) (cr : CReg) (s : State),
    (∃ t, exec (.mrFromSr r sr) s = .next t ∧ Result r (s.readSr sr) s t) ∧
    (∃ t, exec (.mrFromCr r cr) s = .next t ∧ Result r (s.readCr cr) s t) ∧
    (s.xBit = false ∨ sr.toNat < 5 → ∃ t, exec (.mrToSr r sr) s = .next t ∧ t.readSr sr = s.readGr r ∧
      Advances s t ∧ Frame { sr := [sr] } s t) ∧
    (s.xBit = false ∨ cr = 2#5 → ∃ t, exec (.mrToCr r cr) s = .next t ∧
      t.readCr cr = (if cr = 2#5 then s.readGr r &&& 0x1F#32 else s.readGr r) ∧
      Advances s t ∧ Frame { cr := [cr] } s t)

/-- MST in its three modes at the privileged level: ST[26:31] replaced, set or cleared, the old bits in GR[r], every
other bit of ST as before. -/
def Obligations.MstResult : Prop :=
  ∀ (r b : GReg) (v : BitVec 6) (s : State) (i : Instr) (new : Nat → Bool), s.xBit = false →
    ((i = .mst r b ∧ ∀ k, new k = (s.readGr b).getLsbD k) ∨
      (i = .mstSet r v ∧ ∀ k, new k = (s.st.getLsbD k || v.getLsbD k)) ∨
      (i = .mstClear r v ∧ ∀ k, new k = (s.st.getLsbD k && !v.getLsbD k))) →
    ∃ t, exec i s = .next t ∧
      t.readGr r = (if r = 0#4 then 0#32 else BitVec.ofNat 32 (s.st.toNat % 64)) ∧
      (∀ k, k < 6 → t.st.getLsbD k = new k) ∧ Advances s t ∧
      Frame { gr := [r], status := [26, 27, 28, 29, 30, 31] } s t

/-- Every privileged instruction at user level takes trap 6 with its word and has no other effect (decision D21 on
the registers of MR, D34 and D35 on DIAG and LDPA). -/
def Obligations.PrivilegedTrap : Prop :=
  ∀ (i : Instr) (s : State), privilegedInstr i = true → s.xBit = true →
    ∃ t, exec i s = .next t ∧ TookTrap .privilegedOperation (some (encode i)) none none s t

/-- LDPA at the privileged level (the spec's decision D35): of segment zero the offset, else the page's address
through the DTLB whatever ST.D is; without an entry trap 13, which has no parameters. -/
def Obligations.LdpaResult : Prop :=
  ∀ (r a b : GReg) (dw : BitVec 2) (d : BitVec 12) (s : State) (i : Instr) (x : Word), s.xBit = false →
    ((i = .ldpaIdx r dw a b ∧ x = s.readGr b + s.readGr a) ∨ (i = .ldpaOfs r dw d b ∧ x = s.readGr b + lse d)) →
    (s.logicalSeg x = 0#32 → ∃ t, exec i s = .next t ∧ Result r x s t) ∧
    (s.logicalSeg x ≠ 0#32 →
      (∀ e, s.tlbLookup .data (s.logicalSeg x) x = some e → ∃ t, exec i s = .next t ∧
        Result r (BitVec.ofNat 32 (e.ppn.toNat * 2 ^ Config.pageBits + x.toNat % 2 ^ Config.pageBits)) s t) ∧
      (s.tlbLookup .data (s.logicalSeg x) x = none → ∃ t, exec i s = .next t ∧
        TookTrap .nonAccessDataTlbMiss none none none s t))

/-- PRB (the spec's decision D39): one where the access would be allowed at the level asked for, else zero; one in
segment zero; trap 13 without a DTLB entry; at any level, whatever ST.D is. That I set takes the level from GR[a] is the
model's choice of R225 against rulings C19 and C25, log 28. -/
def Obligations.PrbResult : Prop :=
  ∀ (r a b : GReg) (m p byReg : Bool) (seg : BitVec 2) (s : State) (x sid : Word) (level : Nat) (kind : Access),
    x = s.readGr b → sid = s.extSeg seg x → level = (if byReg then (s.readGr a).toNat else p.toNat) →
    kind = (if m then .write else .read) →
    (sid = 0#32 → ∃ t, exec (.prb r m p byReg seg a b) s = .next t ∧ Result r 1#32 s t) ∧
    (sid ≠ 0#32 →
      (∀ e, s.tlbLookup .data sid x = some e →
        ((accessAllowed kind e.ar level = true ∧ (s.pBit = true → s.pidAllowed kind e.pid = true)) →
          ∃ t, exec (.prb r m p byReg seg a b) s = .next t ∧ Result r 1#32 s t) ∧
        (¬ (accessAllowed kind e.ar level = true ∧ (s.pBit = true → s.pidAllowed kind e.pid = true)) →
          ∃ t, exec (.prb r m p byReg seg a b) s = .next t ∧ Result r 0#32 s t)) ∧
      (s.tlbLookup .data sid x = none → ∃ t, exec (.prb r m p byReg seg a b) s = .next t ∧
        TookTrap .nonAccessDataTlbMiss none none none s t))

/-- ITLB.A and ITLB.P at the privileged level (argument layout: the spec's decision D28; a TLB of unbounded size, log
8): the entry of the page has its address part filled and is not valid, and an entry that was there keeps the rest;
then its protection part, and is valid; ITLB.P without an entry does nothing. Other pages' entries and the other TLB
are as before. -/
def Obligations.ItlbResult : Prop :=
  ∀ (r b : GReg) (tb : Bool) (sr : SReg) (s : State) (x sid w : Word), s.xBit = false → x = s.readGr b →
    sid = s.readSr sr → w = s.readGr r →
    (∃ t, exec (.itlbA r tb (sr.setWidth 4) b) s = .next t ∧ t.tlbLookup (tlbSide tb) sid x = none ∧
      (∃ e, t.tlbFind (tlbSide tb) sid x = some e ∧ e.seg = sid ∧ e.vpn = vpnOf x ∧ e.v = false ∧
        e.ppn = fld w 0 (32 - Config.pageBits) ∧
        ∀ e0, s.tlbFind (tlbSide tb) sid x = some e0 →
          e = { e0 with v := false, ppn := fld w 0 (32 - Config.pageBits) }) ∧
      (∀ sid' x', (sid', vpnOf x') ≠ (sid, vpnOf x) →
        t.tlbFind (tlbSide tb) sid' x' = s.tlbFind (tlbSide tb) sid' x') ∧
      t.tlb (tlbSide (!tb)) = s.tlb (tlbSide (!tb)) ∧ Advances s t ∧ Frame { tlbs := true } s t) ∧
    (∃ t, exec (.itlbP r tb (sr.setWidth 4) b) s = .next t ∧
      (∀ e, s.tlbFind (tlbSide tb) sid x = some e → t.tlbLookup (tlbSide tb) sid x =
        some { e with t := bit w 1, d := bit w 2, b := bit w 3, x := bit w 4, ar := fld w 12 4,
                      pid := fld w 16 15, v := true }) ∧
      (s.tlbFind (tlbSide tb) sid x = none → t.tlb (tlbSide tb) = s.tlb (tlbSide tb)) ∧
      (∀ sid' x', (sid', vpnOf x') ≠ (sid, vpnOf x) →
        t.tlbFind (tlbSide tb) sid' x' = s.tlbFind (tlbSide tb) sid' x') ∧
      t.tlb (tlbSide (!tb)) = s.tlb (tlbSide (!tb)) ∧ Advances s t ∧ Frame { tlbs := true } s t)

/-- PTLB at the privileged level: the page has no entry in the TLB named, every other entry is as before. -/
def Obligations.PtlbResult : Prop :=
  ∀ (b : GReg) (tb : Bool) (sr : SReg) (s : State) (x sid : Word), s.xBit = false → x = s.readGr b →
    sid = s.readSr sr →
    ∃ t, exec (.ptlb tb (sr.setWidth 4) b) s = .next t ∧ t.tlbFind (tlbSide tb) sid x = none ∧
      (∀ sid' x', (sid', vpnOf x') ≠ (sid, vpnOf x) →
        t.tlbFind (tlbSide tb) sid' x' = s.tlbFind (tlbSide tb) sid' x') ∧
      t.tlb (tlbSide (!tb)) = s.tlb (tlbSide (!tb)) ∧ Advances s t ∧ Frame { tlbs := true } s t

/-- PCA at the privileged level with coherent caches (CACHE_MODEL = coherent, log 8): nothing changes but IA-OFS;
without an entry in the TLB named, and not in segment zero, trap 13 (data) or 10 (instruction). -/
def Obligations.PcaResult : Prop :=
  ∀ (b : GReg) (tb f : Bool) (sr : SReg) (s : State) (x sid : Word), s.xBit = false → x = s.readGr b →
    sid = s.readSr sr →
    ((sid = 0#32 ∨ s.tlbLookup (tlbSide tb) sid x ≠ none) →
      ∃ t, exec (.pca tb f (sr.setWidth 4) b) s = .next t ∧ Advances s t ∧ Frame {} s t) ∧
    (sid ≠ 0#32 → s.tlbLookup (tlbSide tb) sid x = none →
      ∃ t, exec (.pca tb f (sr.setWidth 4) b) s = .next t ∧
        TookTrap (if tb then .nonAccessDataTlbMiss else .nonAccessInstrTlbMiss) none none none s t)

/-- DIAG at the privileged level: GR[r] gets the platform's answer, by default 0 (the spec's decision D34, log 9). -/
def Obligations.DiagResult : Prop :=
  ∀ (r a b : GReg) (s : State), s.xBit = false → ∃ t, exec (.diag r a b) s = .next t ∧ Result r 0#32 s t

/-- RFI at the privileged level: IA-SEG, of 32 bits (the spec's decision D3), IA-OFS and all of ST from CR18, CR19 and
CR17; nothing else changes. -/
def Obligations.RfiResult : Prop :=
  ∀ s : State, s.xBit = false →
    ∃ t, exec .rfi s = .next t ∧ t.iaSeg = s.readCr 18#5 ∧ t.iaOfs = s.readCr 19#5 &&& 0xFFFFFFFC#32 ∧
      t.st = s.readCr 17#5 ∧ Frame { status := List.range 32, iaSeg := true } s t

/-- BRK: the zero word does nothing; any other takes trap 18 with its word and zeros (the spec's decision D33), at
any level. -/
def Obligations.BrkResult : Prop :=
  ∀ (info1 : BitVec 4) (info2 : BitVec 16) (s : State),
    (info1 = 0#4 ∧ info2 = 0#16 → ∃ t, exec (.brk info1 info2) s = .next t ∧ Advances s t ∧ Frame {} s t) ∧
    (¬ (info1 = 0#4 ∧ info2 = 0#16) → ∃ t, exec (.brk info1 info2) s = .next t ∧
      TookTrap .breakInstr (some (encode (.brk info1 info2))) (some 0#32) (some 0#32) s t)

/-- What an instruction at user level cannot change: SR5 to SR7, the TLBs, and every control register but SHAMT and
those a trap saves into. -/
def Obligations.UserModeConfined : Prop :=
  ∀ (i : Instr) (s t : State), s.xBit = true → exec i s = .next t →
    (∀ q : SReg, 5 ≤ q.toNat → t.readSr q = s.readSr q) ∧
    (∀ c : CReg, c ≠ 2#5 → c ∉ [17#5, 18#5, 19#5, 20#5, 21#5, 22#5] → t.readCr c = s.readCr c) ∧
    t.itlb = s.itlb ∧ t.dtlb = s.dtlb

/-- The level rises to privileged only by a trap or by GATE. -/
def Obligations.PrivilegeRises : Prop :=
  ∀ (i : Instr) (s t : State), s.xBit = true → exec i s = .next t → t.xBit = false →
    (∃ tr, t = s.takeTrap tr) ∨ ∃ r d, i = .gate r d

/-- Only stores change memory. -/
def Obligations.OnlyStoresChangeMemory : Prop :=
  ∀ (i : Instr) (s t : State), mayStore i = false → exec i s = .next t →
    ∀ a, t.mem.readByte a = s.mem.readByte a
end

