-- ==== Sys2Proof/Laws/Memory.lean ====
section
/-! SUPPORT. The lists in canonical order, and memory: reading after a write, and the canonical form kept. -/

namespace Sys2Proof.Machine

section Sorted

variable {α : Type} {key : α → Nat}

theorem sortedFind_sortedInsert (x : α) (k : Nat) (l : List α) :
    sortedFind key k (sortedInsert key x l) = if k = key x then some x else sortedFind key k l := by
  unfold sortedFind
  induction l with
  | nil =>
    by_cases h : k = key x
    · simp [sortedInsert, h]
    · have h' : ¬ key x = k := fun e => h e.symm
      simp [sortedInsert, h, h']
  | cons y ys ih =>
    unfold sortedInsert
    split
    · by_cases h : k = key x
      · simp [h]
      · have h' : ¬ key x = k := fun e => h e.symm
        simp [h, h']
    · split
      · rename_i h1 h2
        by_cases h : k = key x
        · simp [h]
        · have h' : ¬ key x = k := fun e => h e.symm
          have h'' : ¬ key y = k := fun e => h (by omega)
          simp [h, h', h'']
      · rename_i h1 h2
        by_cases hy : key y = k
        · have h : ¬ k = key x := by omega
          simp [hy, h]
        · have hb : (key y == k) = false := by simpa using hy
          simp only [List.find?_cons, hb]
          exact ih

theorem sortedFind_sortedErase (a k : Nat) (l : List α) :
    sortedFind key k (sortedErase key a l) = if k = a then none else sortedFind key k l := by
  unfold sortedFind sortedErase
  induction l with
  | nil => simp
  | cons y ys ih =>
    by_cases hy : key y = a
    · have hb : (key y != a) = false := by simp [hy]
      rw [List.filter_cons_of_neg (by simp [hb]), ih]
      by_cases h : k = a
      · simp [h]
      · have hyk : (key y == k) = false := by simp; omega
        simp [h, hyk]
    · have hb : (key y != a) = true := by simpa using hy
      rw [List.filter_cons_of_pos (by simpa using hb)]
      by_cases hk : key y = k
      · have h : ¬ k = a := by omega
        simp [hk, h]
      · have hyk : (key y == k) = false := by simpa using hk
        simp only [List.find?_cons, hyk]
        exact ih

theorem mem_sortedInsert {x z : α} {l : List α} (h : z ∈ sortedInsert key x l) : z = x ∨ z ∈ l := by
  induction l with
  | nil => simpa [sortedInsert] using h
  | cons y ys ih =>
    unfold sortedInsert at h
    split at h
    · simpa using h
    · split at h
      · rcases List.mem_cons.mp h with h | h
        · exact .inl h
        · exact .inr (List.mem_cons_of_mem _ h)
      · rcases List.mem_cons.mp h with h | h
        · exact .inr (by simp [h])
        · rcases ih h with h | h
          · exact .inl h
          · exact .inr (List.mem_cons_of_mem _ h)

theorem mem_sortedErase {z : α} {k : Nat} {l : List α} (h : z ∈ sortedErase key k l) : z ∈ l :=
  List.mem_of_mem_filter h

theorem rising_sortedInsert (x : α) {l : List α} (h : Rising key l) : Rising key (sortedInsert key x l) := by
  induction l with
  | nil => simp [sortedInsert]
  | cons y ys ih =>
    have hy := List.pairwise_cons.mp h
    unfold sortedInsert
    split
    · rename_i hlt
      refine List.pairwise_cons.mpr ⟨fun z hz => ?_, h⟩
      rcases List.mem_cons.mp hz with rfl | hz
      · exact hlt
      · exact Nat.lt_trans hlt (hy.1 z hz)
    · split
      · rename_i h1 h2
        refine List.pairwise_cons.mpr ⟨fun z hz => ?_, hy.2⟩
        have := hy.1 z hz
        omega
      · rename_i h1 h2
        refine List.pairwise_cons.mpr ⟨fun z hz => ?_, ih hy.2⟩
        rcases mem_sortedInsert hz with rfl | hz
        · omega
        · exact hy.1 z hz

theorem rising_sortedErase (k : Nat) {l : List α} (h : Rising key l) : Rising key (sortedErase key k l) :=
  List.Pairwise.filter _ h

theorem rising_eraseIdx (i : Nat) {l : List α} (h : Rising key l) : Rising key (l.eraseIdx i) :=
  List.Pairwise.sublist (List.eraseIdx_sublist l i) h

end Sorted

/-- One byte of memory after a byte is written. -/
theorem Memory.readByte_writeByte (m : Memory) (a b : Nat) (v : Byte) :
    (m.writeByte a v).readByte b = if b = a then v else m.readByte b := by
  unfold Memory.readByte Memory.writeByte
  by_cases hv : v = Memory.unlisted
  · rw [if_pos hv, sortedFind_sortedErase]
    by_cases h : b = a
    · simp [h, hv]
    · simp [h]
  · rw [if_neg hv, sortedFind_sortedInsert]
    by_cases h : b = a
    · simp [h]
    · simp [h]

theorem Memory.writeByte_wf {m : Memory} (h : m.wf) {a : Nat} (ha : a < 2 ^ 32) (v : Byte) :
    (m.writeByte a v).wf := by
  unfold Memory.writeByte
  split
  · exact ⟨rising_sortedErase a h.1, fun c hc => h.2 c (mem_sortedErase hc)⟩
  · rename_i hv
    refine ⟨rising_sortedInsert _ h.1, fun c hc => ?_⟩
    rcases mem_sortedInsert hc with rfl | hc
    · exact ⟨ha, hv⟩
    · exact h.2 c hc

/-- A big-endian write keeps the canonical form, where every byte written has a 32-bit address. -/
theorem Memory.write_wf {m : Memory} (h : m.wf) {a : Nat} (w : Width) (ha : a + accessBytes w ≤ 2 ^ 32) (v : Word) :
    (m.write a v w).wf := by
  cases w <;> simp only [Memory.write, accessBytes] at *
  · exact writeByte_wf h (by omega) _
  · exact writeByte_wf (writeByte_wf h (by omega) _) (by omega) _
  · exact writeByte_wf (writeByte_wf (writeByte_wf (writeByte_wf h (by omega) _) (by omega) _) (by omega) _)
      (by omega) _

/-- The byte at an address outside those written is unchanged. -/
theorem Memory.readByte_write_outside (m : Memory) (a b : Nat) (v : Word) (w : Width)
    (h : b < a ∨ a + accessBytes w ≤ b) : (m.write a v w).readByte b = m.readByte b := by
  cases w <;> simp only [Memory.write, accessBytes, Memory.readByte_writeByte] at *
  · rw [if_neg (by omega)]
  · rw [if_neg (by omega), if_neg (by omega)]
  · rw [if_neg (by omega), if_neg (by omega), if_neg (by omega), if_neg (by omega)]

/-- Byte k of those written is the k-th, from the most significant, of the rightmost bytes of the value. -/
theorem Memory.readByte_write_inside (m : Memory) (a k : Nat) (v : Word) (w : Width) (h : k < accessBytes w) :
    (m.write a v w).readByte (a + k) = byteOf v (4 - accessBytes w + k) := by
  cases w <;> simp only [Memory.write, accessBytes, Memory.readByte_writeByte] at *
  · obtain rfl : k = 0 := by omega
    simp
  · obtain rfl | rfl : k = 0 ∨ k = 1 := by omega
    · simp
    · simp
  · obtain rfl | rfl | rfl | rfl : k = 0 ∨ k = 1 ∨ k = 2 ∨ k = 3 := by omega
    · simp
    · simp
    · simp
    · simp

/-- Reverting the bytes of a purged line keeps the canonical form. -/
theorem revertBytes_wf {m : Memory} (h : m.wf) (a choice : Nat) (l : List Byte) (ha : a + l.length ≤ 2 ^ 32) :
    (revertBytes m a choice l).wf := by
  induction l generalizing m a choice with
  | nil => exact h
  | cons v vs ih =>
    simp only [List.length_cons] at ha
    unfold revertBytes
    apply ih _ _ _ (by omega)
    split
    · exact Memory.writeByte_wf h (by omega) v
    · exact h

/-- The bytes of a word, put together, are the word. -/
theorem wordOfBytes_byteOf (w : Word) : wordOfBytes (byteOf w 0) (byteOf w 1) (byteOf w 2) (byteOf w 3) = w := by
  apply BitVec.eq_of_getLsbD_eq
  intro i hi
  simp only [wordOfBytes, byteOf, put, fld, BitVec.getLsbD_or, BitVec.getLsbD_shiftLeft, BitVec.getLsbD_setWidth,
    BitVec.getLsbD_extractLsb']
  rcases (by omega : i < 8 ∨ (8 ≤ i ∧ i < 16) ∨ (16 ≤ i ∧ i < 24) ∨ 24 ≤ i) with h | h | h | h
  · simp [h, hi, show i < 24 by omega, show i < 16 by omega]
  · simp [hi, show i < 24 by omega, show i < 16 by omega, show ¬ i < 8 by omega, show i - 8 < 8 by omega,
      show i - 8 < 32 by omega, show 8 + (i - 8) = i by omega]
  · simp [hi, show i < 24 by omega, show ¬ i < 16 by omega, show ¬ i < 8 by omega, show i - 16 < 8 by omega,
      show i - 16 < 32 by omega, show 16 + (i - 16) = i by omega, show ¬ i - 8 < 8 by omega]
  · simp [hi, show ¬ i < 24 by omega, show ¬ i < 16 by omega, show ¬ i < 8 by omega, show i - 24 < 8 by omega,
      show i - 24 < 32 by omega, show 24 + (i - 24) = i by omega, show ¬ i - 8 < 8 by omega,
      show ¬ i - 16 < 8 by omega]

/-- A word of four bytes as a number. -/
theorem toNat_wordOfBytes (b0 b1 b2 b3 : Byte) :
    (wordOfBytes b0 b1 b2 b3).toNat = b0.toNat * 2 ^ 24 + b1.toNat * 2 ^ 16 + b2.toNat * 2 ^ 8 + b3.toNat := by
  have h : wordOfBytes b0 b1 b2 b3 = b0 ++ b1 ++ b2 ++ b3 := by
    apply BitVec.eq_of_getLsbD_eq
    intro i hi
    simp only [wordOfBytes, put, BitVec.getLsbD_or, BitVec.getLsbD_shiftLeft, BitVec.getLsbD_setWidth,
      BitVec.getLsbD_append]
    rcases (by omega : i < 8 ∨ (8 ≤ i ∧ i < 16) ∨ (16 ≤ i ∧ i < 24) ∨ 24 ≤ i) with h | h | h | h
    · simp [h, hi, show i < 24 by omega, show i < 16 by omega]
    · simp [hi, show i < 24 by omega, show i < 16 by omega, show ¬ i < 8 by omega, show i - 8 < 8 by omega,
        show i - 8 < 32 by omega, BitVec.getLsbD_of_ge b3 i (by omega)]
    · simp [hi, show i < 24 by omega, show ¬ i < 16 by omega, show ¬ i < 8 by omega, show i - 16 < 8 by omega,
        show i - 16 < 32 by omega, show ¬ i - 8 < 8 by omega, show i - 8 - 8 = i - 16 by omega,
        BitVec.getLsbD_of_ge b3 i (by omega), BitVec.getLsbD_of_ge b2 (i - 8) (by omega)]
    · simp [hi, show ¬ i < 24 by omega, show ¬ i < 16 by omega, show ¬ i < 8 by omega, show ¬ i - 8 < 8 by omega,
        show ¬ i - 8 - 8 < 8 by omega, show i - 8 - 8 - 8 = i - 24 by omega, show i - 24 < 32 by omega,
        BitVec.getLsbD_of_ge b3 i (by omega), BitVec.getLsbD_of_ge b2 (i - 8) (by omega),
        BitVec.getLsbD_of_ge b1 (i - 16) (by omega)]
  rw [h]
  simp only [BitVec.toNat_append]
  have h1 := b1.isLt
  have h2 := b2.isLt
  have h3 := b3.isLt
  rw [← Nat.shiftLeft_add_eq_or_of_lt h1, ← Nat.shiftLeft_add_eq_or_of_lt h2, ← Nat.shiftLeft_add_eq_or_of_lt h3]
  simp only [Nat.shiftLeft_eq]
  omega

/-- A word read where a word was written is the word written. -/
theorem Memory.read_write_word (m : Memory) (a : Nat) (v : Word) : (m.write a v .word).read a .word = v := by
  have h := fun k hk => Memory.readByte_write_inside m a k v .word hk
  simp only [accessBytes] at h
  have h0 := h 0 (by omega)
  have h1 := h 1 (by omega)
  have h2 := h 2 (by omega)
  have h3 := h 3 (by omega)
  simp only [Nat.add_zero] at h0
  simp only [Memory.read, h0, h1, h2, h3, Nat.sub_self, Nat.zero_add]
  exact wordOfBytes_byteOf v

/-- Two memories that agree on the bytes of an access read the same there. -/
theorem Memory.read_congr {m n : Memory} {a : Nat} {w : Width}
    (h : ∀ k, k < accessBytes w → m.readByte (a + k) = n.readByte (a + k)) : m.read a w = n.read a w := by
  cases w <;> simp only [Memory.read, accessBytes] at *
  · have h0 := h 0 (by omega)
    simp only [Nat.add_zero] at h0
    rw [h0]
  · have h0 := h 0 (by omega)
    simp only [Nat.add_zero] at h0
    rw [h0, h 1 (by omega)]
  · have h0 := h 0 (by omega)
    simp only [Nat.add_zero] at h0
    rw [h0, h 1 (by omega), h 2 (by omega), h 3 (by omega)]

end Sys2Proof.Machine
end

