-- ==== Sys2Proof/Laws/Cache.lean ====
section
/-! SUPPORT. The instruction side of CACHE_MODEL = split (20_memory.md R92): which line a store, a flush and a purge
leave stale, and with what bytes, once for each. -/

namespace Sys2Proof.Machine

theorem sortedFind_key {α : Type} {key : α → Nat} {k : Nat} {l : List α} {x : α} (h : sortedFind key k l = some x) :
    key x = k := by
  simpa using List.find?_some h

/-- A store makes its line stale with the bytes the instruction view has, and leaves a stale line as it is. -/
theorem markStale_find (s : State) (line k : Nat) :
    sortedFind StaleLine.line k (s.markStale line).icache =
      if k = line then
        some ((sortedFind StaleLine.line line s.icache).getD
          { line := line, old := s.lineBytes line, flushed := none })
      else sortedFind StaleLine.line k s.icache := by
  unfold State.markStale
  split
  · rename_i e h
    split <;> simp_all
  · rename_i h
    simp [sortedFind_sortedInsert, h]

/-- A flush notes the line's bytes for the next purge, if the line is stale. -/
theorem flushStale_find (s : State) (line k : Nat) :
    sortedFind StaleLine.line k (s.flushStale line).icache =
      if k = line then
        (sortedFind StaleLine.line line s.icache).map (fun e => { e with flushed := some (s.lineBytes line) })
      else sortedFind StaleLine.line k s.icache := by
  unfold State.flushStale
  split
  · rename_i e h
    simp [sortedFind_sortedInsert, h, sortedFind_key h]
  · rename_i h
    split <;> simp_all

/-- A purge of a flushed line: the instruction view has the flushed bytes, and the line is stale only where memory has
other ones. -/
theorem purgeStale_find {s : State} {line : Nat} {e : StaleLine} {bytes : List Byte}
    (h : sortedFind StaleLine.line line s.icache = some e) (hf : e.flushed = some bytes) (k : Nat) :
    sortedFind StaleLine.line k (s.purgeStale line).icache =
      if k = line then
        (if bytes = s.lineBytes line then none else some { line := line, old := bytes, flushed := none })
      else sortedFind StaleLine.line k s.icache := by
  obtain ⟨l, old, f⟩ := e
  simp only at hf
  subst hf
  simp only [State.purgeStale, h]
  split
  · simp [sortedFind_sortedErase]
  · simp [sortedFind_sortedInsert]

/-- A purge of a line that has not been flushed since it became stale, or is not stale, does nothing. -/
theorem purgeStale_unflushed {s : State} {line : Nat}
    (h : ∀ e, sortedFind StaleLine.line line s.icache = some e → e.flushed = none) : s.purgeStale line = s := by
  unfold State.purgeStale
  split
  · rename_i heq
    exact absurd (h _ heq) (by simp)
  · rfl

/-- Flushed in `s`, stored to again and purged: what the instruction view then has of a stale line is the bytes of
the flush, so that every store before it is seen for certain. -/
theorem purge_after_flush {s t : State} {line : Nat} {e : StaleLine}
    (hs : sortedFind StaleLine.line line s.icache = some e)
    (ht : t.icache = ((s.flushStale line).markStale line).icache) {x : StaleLine}
    (hx : sortedFind StaleLine.line line (t.purgeStale line).icache = some x) : x.old = s.lineBytes line := by
  have h : sortedFind StaleLine.line line t.icache = some { e with flushed := some (s.lineBytes line) } := by
    rw [ht, markStale_find, if_pos rfl, flushStale_find, if_pos rfl, hs]
    rfl
  rw [purgeStale_find h rfl, if_pos rfl] at hx
  split at hx
  · cases hx
  · cases hx
    rfl

end Sys2Proof.Machine
end

