-- ==== Sys2Proof/Laws/Encoding.lean ====
section
/-! SUPPORT. Fields put into a word and read from it: what decoding and encoding agree on, once. -/

namespace Sys2Proof

/-- Reading a field of a word put together from two. -/
@[simp] theorem fld_or (u v : Word) (i n : Nat) : fld (u ||| v) i n = fld u i n ||| fld v i n := by
  apply BitVec.eq_of_getLsbD_eq
  intro k hk
  simp [fld, hk]

/-- Reading a bit of a word put together from two. -/
@[simp] theorem bit_or (u v : Word) (i : Nat) : bit (u ||| v) i = (bit u i || bit v i) := by
  simp [bit]

/-- A field is read back where it was put. -/
theorem fld_put {n : Nat} {i : Nat} (h : i + n ≤ 32) (v : BitVec n) : fld (put i v) i n = v := by
  apply BitVec.eq_of_getLsbD_eq
  intro k hk
  simp only [fld, put, BitVec.getLsbD_extractLsb', BitVec.getLsbD_shiftLeft, BitVec.getLsbD_setWidth]
  simp [hk, show 32 - i - n + k < 32 by omega, show k < 32 by omega]

/-- A field is zero where another one was put. -/
theorem fld_put_of_disjoint {m : Nat} {i j n : Nat} (hj : j + m ≤ 32) (hi : i + n ≤ 32) (v : BitVec m)
    (h : i + n ≤ j ∨ j + m ≤ i) : fld (put j v) i n = 0#n := by
  apply BitVec.eq_of_getLsbD_eq
  intro k hk
  simp only [fld, put, BitVec.getLsbD_extractLsb', BitVec.getLsbD_shiftLeft, BitVec.getLsbD_setWidth]
  rcases h with h | h
  · simp [BitVec.getLsbD_of_ge v (32 - i - n + k - (32 - j - m)) (by omega)]
  · simp [show 32 - i - n + k < 32 - j - m by omega]

/-- A bit of a field. -/
theorem bit_put {n : Nat} {i : Nat} (k : Nat) (v : BitVec n) (hi : i + n ≤ 32) (h : i ≤ k ∧ k < i + n) :
    bit (put i v) k = v.getLsbD (i + n - 1 - k) := by
  simp only [bit, put, BitVec.getLsbD_shiftLeft, BitVec.getLsbD_setWidth]
  simp [show 31 - k < 32 by omega, show ¬ 31 - k < 32 - i - n by omega,
    show 31 - k - (32 - i - n) = i + n - 1 - k by omega, show i + n - 1 - k < 32 by omega]

/-- A bit is clear where another field was put. -/
theorem bit_put_of_disjoint {n : Nat} {i k : Nat} (v : BitVec n) (hi : i + n ≤ 32) (hk : k < 32)
    (h : k < i ∨ i + n ≤ k) : bit (put i v) k = false := by
  simp only [bit, put, BitVec.getLsbD_shiftLeft, BitVec.getLsbD_setWidth]
  rcases h with h | h
  · simp [BitVec.getLsbD_of_ge v (31 - k - (32 - i - n)) (by omega)]
  · simp [show 31 - k < 32 - i - n by omega]

/-- A one-bit field is read back where it was put. -/
theorem bit_putBit {i : Nat} (h : i < 32) (v : Bool) : bit (putBit i v) i = v := by
  unfold putBit
  rw [bit_put i (BitVec.ofBool v) (by omega) (by omega)]
  simp

/-- With RESERVED_NONZERO = refuse a reserved field decides. -/
@[simp] theorem ifZeroElse_eq (why : Reject) (w : Word) (i n : Nat) (r : Except Reject Instr) :
    ifZeroElse why w i n r = if fld w i n = 0#n then r else .error why := by
  simp [ifZeroElse, Config.reservedNonzero]

@[simp] theorem ifZero_eq (w : Word) (i n : Nat) (r : Except Reject Instr) :
    ifZero w i n r = if fld w i n = 0#n then r else .error .reservedField := by
  simp [ifZero]

@[simp] theorem opcLdo_eq : Config.opcLdo = 0x03#6 := rfl

/-- The segment register field is the four-bit field where its reserved bit is clear. -/
theorem segRegField_eq {w : Word} (h : bit w 24 = false) : segRegField w = fld w 24 4 := by
  apply BitVec.eq_of_getLsbD_eq
  intro k hk
  simp only [bit, Nat.reduceSub] at h
  simp only [segRegField, fld, BitVec.getLsbD_setWidth, BitVec.getLsbD_extractLsb', Nat.reduceSub]
  obtain hk | rfl : k < 3 ∨ k = 3 := by omega
  · simp [hk, show k < 4 by omega]
  · simpa using h.symm

end Sys2Proof
end

