-- ==== Sys2Proof/Laws/State.lean ====
section
/-! SUPPORT. What each state update leaves alone and what it sets, one lemma a field; and reading registers after a
write. -/

namespace Sys2Proof.Machine

@[simp] theorem State.writeGr_sr (s : State) (r : GReg) (v : Word) :
    (s.writeGr r v).sr = s.sr := rfl

@[simp] theorem State.writeGr_cr (s : State) (r : GReg) (v : Word) :
    (s.writeGr r v).cr = s.cr := rfl

@[simp] theorem State.writeGr_iaSeg (s : State) (r : GReg) (v : Word) :
    (s.writeGr r v).iaSeg = s.iaSeg := rfl

@[simp] theorem State.writeGr_iaOfs (s : State) (r : GReg) (v : Word) :
    (s.writeGr r v).iaOfs = s.iaOfs := rfl

@[simp] theorem State.writeGr_st (s : State) (r : GReg) (v : Word) :
    (s.writeGr r v).st = s.st := rfl

@[simp] theorem State.writeGr_itlb (s : State) (r : GReg) (v : Word) :
    (s.writeGr r v).itlb = s.itlb := rfl

@[simp] theorem State.writeGr_dtlb (s : State) (r : GReg) (v : Word) :
    (s.writeGr r v).dtlb = s.dtlb := rfl

@[simp] theorem State.writeGr_lrValid (s : State) (r : GReg) (v : Word) :
    (s.writeGr r v).lrValid = s.lrValid := rfl

@[simp] theorem State.writeGr_lrAddr (s : State) (r : GReg) (v : Word) :
    (s.writeGr r v).lrAddr = s.lrAddr := rfl

@[simp] theorem State.writeGr_mem (s : State) (r : GReg) (v : Word) :
    (s.writeGr r v).mem = s.mem := rfl

@[simp] theorem State.writeGr_pdcWords (s : State) (r : GReg) (v : Word) :
    (s.writeGr r v).pdcWords = s.pdcWords := rfl

@[simp] theorem State.writeGr_dcache (s : State) (r : GReg) (v : Word) :
    (s.writeGr r v).dcache = s.dcache := rfl

@[simp] theorem State.writeGr_icache (s : State) (r : GReg) (v : Word) :
    (s.writeGr r v).icache = s.icache := rfl

@[simp] theorem State.writeGr_extPending (s : State) (r : GReg) (v : Word) :
    (s.writeGr r v).extPending = s.extPending := rfl

@[simp] theorem State.writeGr_freeCount (s : State) (r : GReg) (v : Word) :
    (s.writeGr r v).freeCount = s.freeCount := rfl

@[simp] theorem State.writeGr_fetched (s : State) (r : GReg) (v : Word) :
    (s.writeGr r v).fetched = s.fetched := rfl

@[simp] theorem State.writeSr_gr (s : State) (r : SReg) (v : Word) :
    (s.writeSr r v).gr = s.gr := rfl

@[simp] theorem State.writeSr_cr (s : State) (r : SReg) (v : Word) :
    (s.writeSr r v).cr = s.cr := rfl

@[simp] theorem State.writeSr_iaSeg (s : State) (r : SReg) (v : Word) :
    (s.writeSr r v).iaSeg = s.iaSeg := rfl

@[simp] theorem State.writeSr_iaOfs (s : State) (r : SReg) (v : Word) :
    (s.writeSr r v).iaOfs = s.iaOfs := rfl

@[simp] theorem State.writeSr_st (s : State) (r : SReg) (v : Word) :
    (s.writeSr r v).st = s.st := rfl

@[simp] theorem State.writeSr_itlb (s : State) (r : SReg) (v : Word) :
    (s.writeSr r v).itlb = s.itlb := rfl

@[simp] theorem State.writeSr_dtlb (s : State) (r : SReg) (v : Word) :
    (s.writeSr r v).dtlb = s.dtlb := rfl

@[simp] theorem State.writeSr_lrValid (s : State) (r : SReg) (v : Word) :
    (s.writeSr r v).lrValid = s.lrValid := rfl

@[simp] theorem State.writeSr_lrAddr (s : State) (r : SReg) (v : Word) :
    (s.writeSr r v).lrAddr = s.lrAddr := rfl

@[simp] theorem State.writeSr_mem (s : State) (r : SReg) (v : Word) :
    (s.writeSr r v).mem = s.mem := rfl

@[simp] theorem State.writeSr_pdcWords (s : State) (r : SReg) (v : Word) :
    (s.writeSr r v).pdcWords = s.pdcWords := rfl

@[simp] theorem State.writeSr_dcache (s : State) (r : SReg) (v : Word) :
    (s.writeSr r v).dcache = s.dcache := rfl

@[simp] theorem State.writeSr_icache (s : State) (r : SReg) (v : Word) :
    (s.writeSr r v).icache = s.icache := rfl

@[simp] theorem State.writeSr_extPending (s : State) (r : SReg) (v : Word) :
    (s.writeSr r v).extPending = s.extPending := rfl

@[simp] theorem State.writeSr_freeCount (s : State) (r : SReg) (v : Word) :
    (s.writeSr r v).freeCount = s.freeCount := rfl

@[simp] theorem State.writeSr_fetched (s : State) (r : SReg) (v : Word) :
    (s.writeSr r v).fetched = s.fetched := rfl

@[simp] theorem State.writeCr_gr (s : State) (c : CReg) (v : Word) :
    (s.writeCr c v).gr = s.gr := rfl

@[simp] theorem State.writeCr_sr (s : State) (c : CReg) (v : Word) :
    (s.writeCr c v).sr = s.sr := rfl

@[simp] theorem State.writeCr_iaSeg (s : State) (c : CReg) (v : Word) :
    (s.writeCr c v).iaSeg = s.iaSeg := rfl

@[simp] theorem State.writeCr_iaOfs (s : State) (c : CReg) (v : Word) :
    (s.writeCr c v).iaOfs = s.iaOfs := rfl

@[simp] theorem State.writeCr_st (s : State) (c : CReg) (v : Word) :
    (s.writeCr c v).st = s.st := rfl

@[simp] theorem State.writeCr_itlb (s : State) (c : CReg) (v : Word) :
    (s.writeCr c v).itlb = s.itlb := rfl

@[simp] theorem State.writeCr_dtlb (s : State) (c : CReg) (v : Word) :
    (s.writeCr c v).dtlb = s.dtlb := rfl

@[simp] theorem State.writeCr_lrValid (s : State) (c : CReg) (v : Word) :
    (s.writeCr c v).lrValid = s.lrValid := rfl

@[simp] theorem State.writeCr_lrAddr (s : State) (c : CReg) (v : Word) :
    (s.writeCr c v).lrAddr = s.lrAddr := rfl

@[simp] theorem State.writeCr_mem (s : State) (c : CReg) (v : Word) :
    (s.writeCr c v).mem = s.mem := rfl

@[simp] theorem State.writeCr_pdcWords (s : State) (c : CReg) (v : Word) :
    (s.writeCr c v).pdcWords = s.pdcWords := rfl

@[simp] theorem State.writeCr_dcache (s : State) (c : CReg) (v : Word) :
    (s.writeCr c v).dcache = s.dcache := rfl

@[simp] theorem State.writeCr_icache (s : State) (c : CReg) (v : Word) :
    (s.writeCr c v).icache = s.icache := rfl

@[simp] theorem State.writeCr_extPending (s : State) (c : CReg) (v : Word) :
    (s.writeCr c v).extPending = s.extPending := rfl

@[simp] theorem State.writeCr_freeCount (s : State) (c : CReg) (v : Word) :
    (s.writeCr c v).freeCount = s.freeCount := rfl

@[simp] theorem State.writeCr_fetched (s : State) (c : CReg) (v : Word) :
    (s.writeCr c v).fetched = s.fetched := rfl

@[simp] theorem State.writeCrOpt_gr (s : State) (c : CReg) (v : Option Word) :
    (s.writeCrOpt c v).gr = s.gr := rfl

@[simp] theorem State.writeCrOpt_sr (s : State) (c : CReg) (v : Option Word) :
    (s.writeCrOpt c v).sr = s.sr := rfl

@[simp] theorem State.writeCrOpt_iaSeg (s : State) (c : CReg) (v : Option Word) :
    (s.writeCrOpt c v).iaSeg = s.iaSeg := rfl

@[simp] theorem State.writeCrOpt_iaOfs (s : State) (c : CReg) (v : Option Word) :
    (s.writeCrOpt c v).iaOfs = s.iaOfs := rfl

@[simp] theorem State.writeCrOpt_st (s : State) (c : CReg) (v : Option Word) :
    (s.writeCrOpt c v).st = s.st := rfl

@[simp] theorem State.writeCrOpt_itlb (s : State) (c : CReg) (v : Option Word) :
    (s.writeCrOpt c v).itlb = s.itlb := rfl

@[simp] theorem State.writeCrOpt_dtlb (s : State) (c : CReg) (v : Option Word) :
    (s.writeCrOpt c v).dtlb = s.dtlb := rfl

@[simp] theorem State.writeCrOpt_lrValid (s : State) (c : CReg) (v : Option Word) :
    (s.writeCrOpt c v).lrValid = s.lrValid := rfl

@[simp] theorem State.writeCrOpt_lrAddr (s : State) (c : CReg) (v : Option Word) :
    (s.writeCrOpt c v).lrAddr = s.lrAddr := rfl

@[simp] theorem State.writeCrOpt_mem (s : State) (c : CReg) (v : Option Word) :
    (s.writeCrOpt c v).mem = s.mem := rfl

@[simp] theorem State.writeCrOpt_pdcWords (s : State) (c : CReg) (v : Option Word) :
    (s.writeCrOpt c v).pdcWords = s.pdcWords := rfl

@[simp] theorem State.writeCrOpt_dcache (s : State) (c : CReg) (v : Option Word) :
    (s.writeCrOpt c v).dcache = s.dcache := rfl

@[simp] theorem State.writeCrOpt_icache (s : State) (c : CReg) (v : Option Word) :
    (s.writeCrOpt c v).icache = s.icache := rfl

@[simp] theorem State.writeCrOpt_extPending (s : State) (c : CReg) (v : Option Word) :
    (s.writeCrOpt c v).extPending = s.extPending := rfl

@[simp] theorem State.writeCrOpt_freeCount (s : State) (c : CReg) (v : Option Word) :
    (s.writeCrOpt c v).freeCount = s.freeCount := rfl

@[simp] theorem State.writeCrOpt_fetched (s : State) (c : CReg) (v : Option Word) :
    (s.writeCrOpt c v).fetched = s.fetched := rfl

@[simp] theorem State.setSt_gr (s : State) (w : Word) :
    (s.setSt w).gr = s.gr := rfl

@[simp] theorem State.setSt_sr (s : State) (w : Word) :
    (s.setSt w).sr = s.sr := rfl

@[simp] theorem State.setSt_cr (s : State) (w : Word) :
    (s.setSt w).cr = s.cr := rfl

@[simp] theorem State.setSt_iaSeg (s : State) (w : Word) :
    (s.setSt w).iaSeg = s.iaSeg := rfl

@[simp] theorem State.setSt_iaOfs (s : State) (w : Word) :
    (s.setSt w).iaOfs = s.iaOfs := rfl

@[simp] theorem State.setSt_itlb (s : State) (w : Word) :
    (s.setSt w).itlb = s.itlb := rfl

@[simp] theorem State.setSt_dtlb (s : State) (w : Word) :
    (s.setSt w).dtlb = s.dtlb := rfl

@[simp] theorem State.setSt_lrValid (s : State) (w : Word) :
    (s.setSt w).lrValid = s.lrValid := rfl

@[simp] theorem State.setSt_lrAddr (s : State) (w : Word) :
    (s.setSt w).lrAddr = s.lrAddr := rfl

@[simp] theorem State.setSt_mem (s : State) (w : Word) :
    (s.setSt w).mem = s.mem := rfl

@[simp] theorem State.setSt_pdcWords (s : State) (w : Word) :
    (s.setSt w).pdcWords = s.pdcWords := rfl

@[simp] theorem State.setSt_dcache (s : State) (w : Word) :
    (s.setSt w).dcache = s.dcache := rfl

@[simp] theorem State.setSt_icache (s : State) (w : Word) :
    (s.setSt w).icache = s.icache := rfl

@[simp] theorem State.setSt_extPending (s : State) (w : Word) :
    (s.setSt w).extPending = s.extPending := rfl

@[simp] theorem State.setSt_freeCount (s : State) (w : Word) :
    (s.setSt w).freeCount = s.freeCount := rfl

@[simp] theorem State.setSt_fetched (s : State) (w : Word) :
    (s.setSt w).fetched = s.fetched := rfl

@[simp] theorem State.setSt_st (s : State) (w : Word) :
    (s.setSt w).st = w := rfl

@[simp] theorem State.setStatusBit_gr (s : State) (i : Nat) (v : Bool) :
    (s.setStatusBit i v).gr = s.gr := rfl

@[simp] theorem State.setStatusBit_sr (s : State) (i : Nat) (v : Bool) :
    (s.setStatusBit i v).sr = s.sr := rfl

@[simp] theorem State.setStatusBit_cr (s : State) (i : Nat) (v : Bool) :
    (s.setStatusBit i v).cr = s.cr := rfl

@[simp] theorem State.setStatusBit_iaSeg (s : State) (i : Nat) (v : Bool) :
    (s.setStatusBit i v).iaSeg = s.iaSeg := rfl

@[simp] theorem State.setStatusBit_iaOfs (s : State) (i : Nat) (v : Bool) :
    (s.setStatusBit i v).iaOfs = s.iaOfs := rfl

@[simp] theorem State.setStatusBit_itlb (s : State) (i : Nat) (v : Bool) :
    (s.setStatusBit i v).itlb = s.itlb := rfl

@[simp] theorem State.setStatusBit_dtlb (s : State) (i : Nat) (v : Bool) :
    (s.setStatusBit i v).dtlb = s.dtlb := rfl

@[simp] theorem State.setStatusBit_lrValid (s : State) (i : Nat) (v : Bool) :
    (s.setStatusBit i v).lrValid = s.lrValid := rfl

@[simp] theorem State.setStatusBit_lrAddr (s : State) (i : Nat) (v : Bool) :
    (s.setStatusBit i v).lrAddr = s.lrAddr := rfl

@[simp] theorem State.setStatusBit_mem (s : State) (i : Nat) (v : Bool) :
    (s.setStatusBit i v).mem = s.mem := rfl

@[simp] theorem State.setStatusBit_pdcWords (s : State) (i : Nat) (v : Bool) :
    (s.setStatusBit i v).pdcWords = s.pdcWords := rfl

@[simp] theorem State.setStatusBit_dcache (s : State) (i : Nat) (v : Bool) :
    (s.setStatusBit i v).dcache = s.dcache := rfl

@[simp] theorem State.setStatusBit_icache (s : State) (i : Nat) (v : Bool) :
    (s.setStatusBit i v).icache = s.icache := rfl

@[simp] theorem State.setStatusBit_extPending (s : State) (i : Nat) (v : Bool) :
    (s.setStatusBit i v).extPending = s.extPending := rfl

@[simp] theorem State.setStatusBit_freeCount (s : State) (i : Nat) (v : Bool) :
    (s.setStatusBit i v).freeCount = s.freeCount := rfl

@[simp] theorem State.setStatusBit_fetched (s : State) (i : Nat) (v : Bool) :
    (s.setStatusBit i v).fetched = s.fetched := rfl

@[simp] theorem State.setStatusBit_st (s : State) (i : Nat) (v : Bool) :
    (s.setStatusBit i v).st = setStBit s.st i v := rfl

@[simp] theorem State.setIaSeg_gr (s : State) (v : Word) :
    (s.setIaSeg v).gr = s.gr := rfl

@[simp] theorem State.setIaSeg_sr (s : State) (v : Word) :
    (s.setIaSeg v).sr = s.sr := rfl

@[simp] theorem State.setIaSeg_cr (s : State) (v : Word) :
    (s.setIaSeg v).cr = s.cr := rfl

@[simp] theorem State.setIaSeg_iaOfs (s : State) (v : Word) :
    (s.setIaSeg v).iaOfs = s.iaOfs := rfl

@[simp] theorem State.setIaSeg_st (s : State) (v : Word) :
    (s.setIaSeg v).st = s.st := rfl

@[simp] theorem State.setIaSeg_itlb (s : State) (v : Word) :
    (s.setIaSeg v).itlb = s.itlb := rfl

@[simp] theorem State.setIaSeg_dtlb (s : State) (v : Word) :
    (s.setIaSeg v).dtlb = s.dtlb := rfl

@[simp] theorem State.setIaSeg_lrValid (s : State) (v : Word) :
    (s.setIaSeg v).lrValid = s.lrValid := rfl

@[simp] theorem State.setIaSeg_lrAddr (s : State) (v : Word) :
    (s.setIaSeg v).lrAddr = s.lrAddr := rfl

@[simp] theorem State.setIaSeg_mem (s : State) (v : Word) :
    (s.setIaSeg v).mem = s.mem := rfl

@[simp] theorem State.setIaSeg_pdcWords (s : State) (v : Word) :
    (s.setIaSeg v).pdcWords = s.pdcWords := rfl

@[simp] theorem State.setIaSeg_dcache (s : State) (v : Word) :
    (s.setIaSeg v).dcache = s.dcache := rfl

@[simp] theorem State.setIaSeg_icache (s : State) (v : Word) :
    (s.setIaSeg v).icache = s.icache := rfl

@[simp] theorem State.setIaSeg_extPending (s : State) (v : Word) :
    (s.setIaSeg v).extPending = s.extPending := rfl

@[simp] theorem State.setIaSeg_freeCount (s : State) (v : Word) :
    (s.setIaSeg v).freeCount = s.freeCount := rfl

@[simp] theorem State.setIaSeg_fetched (s : State) (v : Word) :
    (s.setIaSeg v).fetched = s.fetched := rfl

@[simp] theorem State.setIaSeg_iaSeg (s : State) (v : Word) :
    (s.setIaSeg v).iaSeg = truncSeg v := rfl

@[simp] theorem State.setIaOfs_gr (s : State) (v : Word) :
    (s.setIaOfs v).gr = s.gr := rfl

@[simp] theorem State.setIaOfs_sr (s : State) (v : Word) :
    (s.setIaOfs v).sr = s.sr := rfl

@[simp] theorem State.setIaOfs_cr (s : State) (v : Word) :
    (s.setIaOfs v).cr = s.cr := rfl

@[simp] theorem State.setIaOfs_iaSeg (s : State) (v : Word) :
    (s.setIaOfs v).iaSeg = s.iaSeg := rfl

@[simp] theorem State.setIaOfs_st (s : State) (v : Word) :
    (s.setIaOfs v).st = s.st := rfl

@[simp] theorem State.setIaOfs_itlb (s : State) (v : Word) :
    (s.setIaOfs v).itlb = s.itlb := rfl

@[simp] theorem State.setIaOfs_dtlb (s : State) (v : Word) :
    (s.setIaOfs v).dtlb = s.dtlb := rfl

@[simp] theorem State.setIaOfs_lrValid (s : State) (v : Word) :
    (s.setIaOfs v).lrValid = s.lrValid := rfl

@[simp] theorem State.setIaOfs_lrAddr (s : State) (v : Word) :
    (s.setIaOfs v).lrAddr = s.lrAddr := rfl

@[simp] theorem State.setIaOfs_mem (s : State) (v : Word) :
    (s.setIaOfs v).mem = s.mem := rfl

@[simp] theorem State.setIaOfs_pdcWords (s : State) (v : Word) :
    (s.setIaOfs v).pdcWords = s.pdcWords := rfl

@[simp] theorem State.setIaOfs_dcache (s : State) (v : Word) :
    (s.setIaOfs v).dcache = s.dcache := rfl

@[simp] theorem State.setIaOfs_icache (s : State) (v : Word) :
    (s.setIaOfs v).icache = s.icache := rfl

@[simp] theorem State.setIaOfs_extPending (s : State) (v : Word) :
    (s.setIaOfs v).extPending = s.extPending := rfl

@[simp] theorem State.setIaOfs_freeCount (s : State) (v : Word) :
    (s.setIaOfs v).freeCount = s.freeCount := rfl

@[simp] theorem State.setIaOfs_fetched (s : State) (v : Word) :
    (s.setIaOfs v).fetched = s.fetched := rfl

@[simp] theorem State.setIaOfs_iaOfs (s : State) (v : Word) :
    (s.setIaOfs v).iaOfs = v &&& 0xFFFFFFFC#32 := rfl

@[simp] theorem State.advance_gr (s : State) :
    (s.advance).gr = s.gr := rfl

@[simp] theorem State.advance_sr (s : State) :
    (s.advance).sr = s.sr := rfl

@[simp] theorem State.advance_cr (s : State) :
    (s.advance).cr = s.cr := rfl

@[simp] theorem State.advance_iaSeg (s : State) :
    (s.advance).iaSeg = s.iaSeg := rfl

@[simp] theorem State.advance_st (s : State) :
    (s.advance).st = s.st := rfl

@[simp] theorem State.advance_itlb (s : State) :
    (s.advance).itlb = s.itlb := rfl

@[simp] theorem State.advance_dtlb (s : State) :
    (s.advance).dtlb = s.dtlb := rfl

@[simp] theorem State.advance_lrValid (s : State) :
    (s.advance).lrValid = s.lrValid := rfl

@[simp] theorem State.advance_lrAddr (s : State) :
    (s.advance).lrAddr = s.lrAddr := rfl

@[simp] theorem State.advance_mem (s : State) :
    (s.advance).mem = s.mem := rfl

@[simp] theorem State.advance_pdcWords (s : State) :
    (s.advance).pdcWords = s.pdcWords := rfl

@[simp] theorem State.advance_dcache (s : State) :
    (s.advance).dcache = s.dcache := rfl

@[simp] theorem State.advance_icache (s : State) :
    (s.advance).icache = s.icache := rfl

@[simp] theorem State.advance_extPending (s : State) :
    (s.advance).extPending = s.extPending := rfl

@[simp] theorem State.advance_freeCount (s : State) :
    (s.advance).freeCount = s.freeCount := rfl

@[simp] theorem State.advance_fetched (s : State) :
    (s.advance).fetched = s.fetched := rfl

@[simp] theorem State.advance_iaOfs (s : State) :
    (s.advance).iaOfs = (s.iaOfs + 4#32) &&& 0xFFFFFFFC#32 := rfl

@[simp] theorem State.result_sr (s : State) (r : GReg) (v : Word) :
    (s.result r v).sr = s.sr := rfl

@[simp] theorem State.result_cr (s : State) (r : GReg) (v : Word) :
    (s.result r v).cr = s.cr := rfl

@[simp] theorem State.result_iaSeg (s : State) (r : GReg) (v : Word) :
    (s.result r v).iaSeg = s.iaSeg := rfl

@[simp] theorem State.result_st (s : State) (r : GReg) (v : Word) :
    (s.result r v).st = s.st := rfl

@[simp] theorem State.result_itlb (s : State) (r : GReg) (v : Word) :
    (s.result r v).itlb = s.itlb := rfl

@[simp] theorem State.result_dtlb (s : State) (r : GReg) (v : Word) :
    (s.result r v).dtlb = s.dtlb := rfl

@[simp] theorem State.result_lrValid (s : State) (r : GReg) (v : Word) :
    (s.result r v).lrValid = s.lrValid := rfl

@[simp] theorem State.result_lrAddr (s : State) (r : GReg) (v : Word) :
    (s.result r v).lrAddr = s.lrAddr := rfl

@[simp] theorem State.result_mem (s : State) (r : GReg) (v : Word) :
    (s.result r v).mem = s.mem := rfl

@[simp] theorem State.result_pdcWords (s : State) (r : GReg) (v : Word) :
    (s.result r v).pdcWords = s.pdcWords := rfl

@[simp] theorem State.result_dcache (s : State) (r : GReg) (v : Word) :
    (s.result r v).dcache = s.dcache := rfl

@[simp] theorem State.result_icache (s : State) (r : GReg) (v : Word) :
    (s.result r v).icache = s.icache := rfl

@[simp] theorem State.result_extPending (s : State) (r : GReg) (v : Word) :
    (s.result r v).extPending = s.extPending := rfl

@[simp] theorem State.result_freeCount (s : State) (r : GReg) (v : Word) :
    (s.result r v).freeCount = s.freeCount := rfl

@[simp] theorem State.result_fetched (s : State) (r : GReg) (v : Word) :
    (s.result r v).fetched = s.fetched := rfl

@[simp] theorem State.result_iaOfs (s : State) (r : GReg) (v : Word) :
    (s.result r v).iaOfs = (s.iaOfs + 4#32) &&& 0xFFFFFFFC#32 := rfl

@[simp] theorem State.writeBase_sr (s : State) (b : GReg) (v : Option Word) :
    (s.writeBase b v).sr = s.sr := rfl

@[simp] theorem State.writeBase_cr (s : State) (b : GReg) (v : Option Word) :
    (s.writeBase b v).cr = s.cr := rfl

@[simp] theorem State.writeBase_iaSeg (s : State) (b : GReg) (v : Option Word) :
    (s.writeBase b v).iaSeg = s.iaSeg := rfl

@[simp] theorem State.writeBase_iaOfs (s : State) (b : GReg) (v : Option Word) :
    (s.writeBase b v).iaOfs = s.iaOfs := rfl

@[simp] theorem State.writeBase_st (s : State) (b : GReg) (v : Option Word) :
    (s.writeBase b v).st = s.st := rfl

@[simp] theorem State.writeBase_itlb (s : State) (b : GReg) (v : Option Word) :
    (s.writeBase b v).itlb = s.itlb := rfl

@[simp] theorem State.writeBase_dtlb (s : State) (b : GReg) (v : Option Word) :
    (s.writeBase b v).dtlb = s.dtlb := rfl

@[simp] theorem State.writeBase_lrValid (s : State) (b : GReg) (v : Option Word) :
    (s.writeBase b v).lrValid = s.lrValid := rfl

@[simp] theorem State.writeBase_lrAddr (s : State) (b : GReg) (v : Option Word) :
    (s.writeBase b v).lrAddr = s.lrAddr := rfl

@[simp] theorem State.writeBase_mem (s : State) (b : GReg) (v : Option Word) :
    (s.writeBase b v).mem = s.mem := rfl

@[simp] theorem State.writeBase_pdcWords (s : State) (b : GReg) (v : Option Word) :
    (s.writeBase b v).pdcWords = s.pdcWords := rfl

@[simp] theorem State.writeBase_dcache (s : State) (b : GReg) (v : Option Word) :
    (s.writeBase b v).dcache = s.dcache := rfl

@[simp] theorem State.writeBase_icache (s : State) (b : GReg) (v : Option Word) :
    (s.writeBase b v).icache = s.icache := rfl

@[simp] theorem State.writeBase_extPending (s : State) (b : GReg) (v : Option Word) :
    (s.writeBase b v).extPending = s.extPending := rfl

@[simp] theorem State.writeBase_freeCount (s : State) (b : GReg) (v : Option Word) :
    (s.writeBase b v).freeCount = s.freeCount := rfl

@[simp] theorem State.writeBase_fetched (s : State) (b : GReg) (v : Option Word) :
    (s.writeBase b v).fetched = s.fetched := rfl

@[simp] theorem State.enterSeg_gr (s : State) (seg : Word) :
    (s.enterSeg seg).gr = s.gr := rfl

@[simp] theorem State.enterSeg_sr (s : State) (seg : Word) :
    (s.enterSeg seg).sr = s.sr := rfl

@[simp] theorem State.enterSeg_cr (s : State) (seg : Word) :
    (s.enterSeg seg).cr = s.cr := rfl

@[simp] theorem State.enterSeg_iaOfs (s : State) (seg : Word) :
    (s.enterSeg seg).iaOfs = s.iaOfs := rfl

@[simp] theorem State.enterSeg_st (s : State) (seg : Word) :
    (s.enterSeg seg).st = s.st := rfl

@[simp] theorem State.enterSeg_itlb (s : State) (seg : Word) :
    (s.enterSeg seg).itlb = s.itlb := rfl

@[simp] theorem State.enterSeg_dtlb (s : State) (seg : Word) :
    (s.enterSeg seg).dtlb = s.dtlb := rfl

@[simp] theorem State.enterSeg_lrValid (s : State) (seg : Word) :
    (s.enterSeg seg).lrValid = s.lrValid := rfl

@[simp] theorem State.enterSeg_lrAddr (s : State) (seg : Word) :
    (s.enterSeg seg).lrAddr = s.lrAddr := rfl

@[simp] theorem State.enterSeg_mem (s : State) (seg : Word) :
    (s.enterSeg seg).mem = s.mem := rfl

@[simp] theorem State.enterSeg_pdcWords (s : State) (seg : Word) :
    (s.enterSeg seg).pdcWords = s.pdcWords := rfl

@[simp] theorem State.enterSeg_dcache (s : State) (seg : Word) :
    (s.enterSeg seg).dcache = s.dcache := rfl

@[simp] theorem State.enterSeg_icache (s : State) (seg : Word) :
    (s.enterSeg seg).icache = s.icache := rfl

@[simp] theorem State.enterSeg_extPending (s : State) (seg : Word) :
    (s.enterSeg seg).extPending = s.extPending := rfl

@[simp] theorem State.enterSeg_freeCount (s : State) (seg : Word) :
    (s.enterSeg seg).freeCount = s.freeCount := rfl

@[simp] theorem State.enterSeg_fetched (s : State) (seg : Word) :
    (s.enterSeg seg).fetched = s.fetched := rfl

@[simp] theorem State.setTlb_gr (s : State) (side : TlbSide) (l : List TlbEntry) :
    (s.setTlb side l).gr = s.gr := rfl

@[simp] theorem State.setTlb_sr (s : State) (side : TlbSide) (l : List TlbEntry) :
    (s.setTlb side l).sr = s.sr := rfl

@[simp] theorem State.setTlb_cr (s : State) (side : TlbSide) (l : List TlbEntry) :
    (s.setTlb side l).cr = s.cr := rfl

@[simp] theorem State.setTlb_iaSeg (s : State) (side : TlbSide) (l : List TlbEntry) :
    (s.setTlb side l).iaSeg = s.iaSeg := rfl

@[simp] theorem State.setTlb_iaOfs (s : State) (side : TlbSide) (l : List TlbEntry) :
    (s.setTlb side l).iaOfs = s.iaOfs := rfl

@[simp] theorem State.setTlb_st (s : State) (side : TlbSide) (l : List TlbEntry) :
    (s.setTlb side l).st = s.st := rfl

@[simp] theorem State.setTlb_lrValid (s : State) (side : TlbSide) (l : List TlbEntry) :
    (s.setTlb side l).lrValid = s.lrValid := rfl

@[simp] theorem State.setTlb_lrAddr (s : State) (side : TlbSide) (l : List TlbEntry) :
    (s.setTlb side l).lrAddr = s.lrAddr := rfl

@[simp] theorem State.setTlb_mem (s : State) (side : TlbSide) (l : List TlbEntry) :
    (s.setTlb side l).mem = s.mem := rfl

@[simp] theorem State.setTlb_pdcWords (s : State) (side : TlbSide) (l : List TlbEntry) :
    (s.setTlb side l).pdcWords = s.pdcWords := rfl

@[simp] theorem State.setTlb_dcache (s : State) (side : TlbSide) (l : List TlbEntry) :
    (s.setTlb side l).dcache = s.dcache := rfl

@[simp] theorem State.setTlb_icache (s : State) (side : TlbSide) (l : List TlbEntry) :
    (s.setTlb side l).icache = s.icache := rfl

@[simp] theorem State.setTlb_extPending (s : State) (side : TlbSide) (l : List TlbEntry) :
    (s.setTlb side l).extPending = s.extPending := rfl

@[simp] theorem State.setTlb_freeCount (s : State) (side : TlbSide) (l : List TlbEntry) :
    (s.setTlb side l).freeCount = s.freeCount := rfl

@[simp] theorem State.setTlb_fetched (s : State) (side : TlbSide) (l : List TlbEntry) :
    (s.setTlb side l).fetched = s.fetched := rfl

@[simp] theorem State.endReservation_gr (s : State) :
    (s.endReservation).gr = s.gr := rfl

@[simp] theorem State.endReservation_sr (s : State) :
    (s.endReservation).sr = s.sr := rfl

@[simp] theorem State.endReservation_cr (s : State) :
    (s.endReservation).cr = s.cr := rfl

@[simp] theorem State.endReservation_iaSeg (s : State) :
    (s.endReservation).iaSeg = s.iaSeg := rfl

@[simp] theorem State.endReservation_iaOfs (s : State) :
    (s.endReservation).iaOfs = s.iaOfs := rfl

@[simp] theorem State.endReservation_st (s : State) :
    (s.endReservation).st = s.st := rfl

@[simp] theorem State.endReservation_itlb (s : State) :
    (s.endReservation).itlb = s.itlb := rfl

@[simp] theorem State.endReservation_dtlb (s : State) :
    (s.endReservation).dtlb = s.dtlb := rfl

@[simp] theorem State.endReservation_lrAddr (s : State) :
    (s.endReservation).lrAddr = s.lrAddr := rfl

@[simp] theorem State.endReservation_mem (s : State) :
    (s.endReservation).mem = s.mem := rfl

@[simp] theorem State.endReservation_pdcWords (s : State) :
    (s.endReservation).pdcWords = s.pdcWords := rfl

@[simp] theorem State.endReservation_dcache (s : State) :
    (s.endReservation).dcache = s.dcache := rfl

@[simp] theorem State.endReservation_icache (s : State) :
    (s.endReservation).icache = s.icache := rfl

@[simp] theorem State.endReservation_extPending (s : State) :
    (s.endReservation).extPending = s.extPending := rfl

@[simp] theorem State.endReservation_fetched (s : State) :
    (s.endReservation).fetched = s.fetched := rfl

@[simp] theorem State.endReservation_lrValid (s : State) :
    (s.endReservation).lrValid = false := rfl

@[simp] theorem State.wroteElsewhere_gr (s : State) (p : Word) (w : Width) :
    (s.wroteElsewhere p w).gr = s.gr := rfl

@[simp] theorem State.wroteElsewhere_sr (s : State) (p : Word) (w : Width) :
    (s.wroteElsewhere p w).sr = s.sr := rfl

@[simp] theorem State.wroteElsewhere_cr (s : State) (p : Word) (w : Width) :
    (s.wroteElsewhere p w).cr = s.cr := rfl

@[simp] theorem State.wroteElsewhere_iaSeg (s : State) (p : Word) (w : Width) :
    (s.wroteElsewhere p w).iaSeg = s.iaSeg := rfl

@[simp] theorem State.wroteElsewhere_iaOfs (s : State) (p : Word) (w : Width) :
    (s.wroteElsewhere p w).iaOfs = s.iaOfs := rfl

@[simp] theorem State.wroteElsewhere_st (s : State) (p : Word) (w : Width) :
    (s.wroteElsewhere p w).st = s.st := rfl

@[simp] theorem State.wroteElsewhere_itlb (s : State) (p : Word) (w : Width) :
    (s.wroteElsewhere p w).itlb = s.itlb := rfl

@[simp] theorem State.wroteElsewhere_dtlb (s : State) (p : Word) (w : Width) :
    (s.wroteElsewhere p w).dtlb = s.dtlb := rfl

@[simp] theorem State.wroteElsewhere_lrAddr (s : State) (p : Word) (w : Width) :
    (s.wroteElsewhere p w).lrAddr = s.lrAddr := rfl

@[simp] theorem State.wroteElsewhere_mem (s : State) (p : Word) (w : Width) :
    (s.wroteElsewhere p w).mem = s.mem := rfl

@[simp] theorem State.wroteElsewhere_pdcWords (s : State) (p : Word) (w : Width) :
    (s.wroteElsewhere p w).pdcWords = s.pdcWords := rfl

@[simp] theorem State.wroteElsewhere_dcache (s : State) (p : Word) (w : Width) :
    (s.wroteElsewhere p w).dcache = s.dcache := rfl

@[simp] theorem State.wroteElsewhere_icache (s : State) (p : Word) (w : Width) :
    (s.wroteElsewhere p w).icache = s.icache := rfl

@[simp] theorem State.wroteElsewhere_extPending (s : State) (p : Word) (w : Width) :
    (s.wroteElsewhere p w).extPending = s.extPending := rfl

@[simp] theorem State.wroteElsewhere_freeCount (s : State) (p : Word) (w : Width) :
    (s.wroteElsewhere p w).freeCount = s.freeCount := rfl

@[simp] theorem State.wroteElsewhere_fetched (s : State) (p : Word) (w : Width) :
    (s.wroteElsewhere p w).fetched = s.fetched := rfl

@[simp] theorem State.takeTrap_gr (s : State) (t : Trap) :
    (s.takeTrap t).gr = s.gr := by simp [State.takeTrap]

@[simp] theorem State.takeTrap_sr (s : State) (t : Trap) :
    (s.takeTrap t).sr = s.sr := by simp [State.takeTrap]

@[simp] theorem State.takeTrap_itlb (s : State) (t : Trap) :
    (s.takeTrap t).itlb = s.itlb := by simp [State.takeTrap]

@[simp] theorem State.takeTrap_dtlb (s : State) (t : Trap) :
    (s.takeTrap t).dtlb = s.dtlb := by simp [State.takeTrap]

@[simp] theorem State.takeTrap_lrValid (s : State) (t : Trap) :
    (s.takeTrap t).lrValid = s.lrValid := by simp [State.takeTrap]

@[simp] theorem State.takeTrap_lrAddr (s : State) (t : Trap) :
    (s.takeTrap t).lrAddr = s.lrAddr := by simp [State.takeTrap]

@[simp] theorem State.takeTrap_mem (s : State) (t : Trap) :
    (s.takeTrap t).mem = s.mem := by simp [State.takeTrap]

@[simp] theorem State.takeTrap_pdcWords (s : State) (t : Trap) :
    (s.takeTrap t).pdcWords = s.pdcWords := by simp [State.takeTrap]

@[simp] theorem State.takeTrap_dcache (s : State) (t : Trap) :
    (s.takeTrap t).dcache = s.dcache := by simp [State.takeTrap]

@[simp] theorem State.takeTrap_icache (s : State) (t : Trap) :
    (s.takeTrap t).icache = s.icache := by simp [State.takeTrap]

@[simp] theorem State.takeTrap_extPending (s : State) (t : Trap) :
    (s.takeTrap t).extPending = s.extPending := by simp [State.takeTrap]

@[simp] theorem State.takeTrap_freeCount (s : State) (t : Trap) :
    (s.takeTrap t).freeCount = s.freeCount := by simp [State.takeTrap]

@[simp] theorem State.takeTrap_fetched (s : State) (t : Trap) :
    (s.takeTrap t).fetched = s.fetched := by simp [State.takeTrap]

@[simp] theorem State.returnFromTrap_gr (s : State) :
    (s.returnFromTrap).gr = s.gr := rfl

@[simp] theorem State.returnFromTrap_sr (s : State) :
    (s.returnFromTrap).sr = s.sr := rfl

@[simp] theorem State.returnFromTrap_cr (s : State) :
    (s.returnFromTrap).cr = s.cr := rfl

@[simp] theorem State.returnFromTrap_itlb (s : State) :
    (s.returnFromTrap).itlb = s.itlb := rfl

@[simp] theorem State.returnFromTrap_dtlb (s : State) :
    (s.returnFromTrap).dtlb = s.dtlb := rfl

@[simp] theorem State.returnFromTrap_lrValid (s : State) :
    (s.returnFromTrap).lrValid = s.lrValid := rfl

@[simp] theorem State.returnFromTrap_lrAddr (s : State) :
    (s.returnFromTrap).lrAddr = s.lrAddr := rfl

@[simp] theorem State.returnFromTrap_mem (s : State) :
    (s.returnFromTrap).mem = s.mem := rfl

@[simp] theorem State.returnFromTrap_pdcWords (s : State) :
    (s.returnFromTrap).pdcWords = s.pdcWords := rfl

@[simp] theorem State.returnFromTrap_dcache (s : State) :
    (s.returnFromTrap).dcache = s.dcache := rfl

@[simp] theorem State.returnFromTrap_icache (s : State) :
    (s.returnFromTrap).icache = s.icache := rfl

@[simp] theorem State.returnFromTrap_extPending (s : State) :
    (s.returnFromTrap).extPending = s.extPending := rfl

@[simp] theorem State.returnFromTrap_freeCount (s : State) :
    (s.returnFromTrap).freeCount = s.freeCount := rfl

@[simp] theorem State.returnFromTrap_fetched (s : State) :
    (s.returnFromTrap).fetched = s.fetched := rfl

/-- With RESERVED_NONZERO = refuse the word a trap reports is the instruction's own. -/
@[simp] theorem State.instrWord_eq (s : State) (i : Instr) : s.instrWord i = encode i := rfl

/-- With RESERVED_NONZERO = refuse a step keeps no word. -/
@[simp] theorem State.recordFetch_eq (s : State) (w : Word) : s.recordFetch w = s := rfl

@[simp] theorem State.result_gr (s : State) (r : GReg) (v : Word) : (s.result r v).gr = (s.writeGr r v).gr := rfl

@[simp] theorem truncSeg_eq (v : Word) : truncSeg v = v := by
  unfold truncSeg Config.segBits
  apply BitVec.eq_of_toNat_eq
  rw [BitVec.toNat_ofNat, Nat.mod_mod, Nat.mod_eq_of_lt v.isLt]

@[simp] theorem crKeep_other {c : CReg} (v : Word) (h : c ≠ 2#5) : crKeep c v = v := by
  unfold crKeep
  rw [if_neg h]
  simp

theorem crKeep_crKeep (c : CReg) (v : Word) : crKeep c (crKeep c v) = crKeep c v := by
  unfold crKeep
  split
  · simp [BitVec.and_assoc]
  · simp

/-- GR0 reads as zero. -/
@[simp] theorem State.readGr_zero (s : State) : s.readGr 0#4 = 0#32 := rfl

theorem State.readGr_congr {s t : State} (h : t.gr = s.gr) (q : GReg) : t.readGr q = s.readGr q := by
  simp [State.readGr, h]

theorem State.readSr_congr {s t : State} (h : t.sr = s.sr) (q : SReg) : t.readSr q = s.readSr q := by
  simp [State.readSr, h]

theorem State.readCr_congr {s t : State} (h : t.cr = s.cr) (c : CReg) : t.readCr c = s.readCr c := by
  simp [State.readCr, h]

/-- Reading any general register after a write to one. -/
theorem State.readGr_writeGr (s : State) (r q : GReg) (v : Word) :
    (s.writeGr r v).readGr q = if q = r then (if r = 0#4 then 0#32 else v) else s.readGr q := by
  unfold State.readGr State.writeGr
  by_cases hr : r = 0#4
  · subst hr
    by_cases hq : q = 0#4
    · simp only [hq, if_true]
    · simp only [hq, if_false, if_true]
  · by_cases hq : q = r
    · subst hq
      simp only [hr, if_false, if_true]
      exact Vector.getElem_set_self ..
    · have h : ¬ r.toNat = q.toNat := fun e => hq (BitVec.eq_of_toNat_eq e.symm)
      simp only [hr, hq, if_false]
      split
      · rfl
      · exact Vector.getElem_set_ne (h := h) ..

@[simp] theorem State.readGr_writeGr_ne (s : State) {r q : GReg} (v : Word) (h : q ≠ r) :
    (s.writeGr r v).readGr q = s.readGr q := by
  rw [State.readGr_writeGr, if_neg h]

/-- Reading any segment register after a write to one. -/
theorem State.readSr_writeSr (s : State) (r q : SReg) (v : Word) :
    (s.writeSr r v).readSr q = if q = r then v else s.readSr q := by
  unfold State.readSr State.writeSr
  by_cases hq : q = r
  · subst hq
    simp
  · have h : ¬ r.toNat = q.toNat := fun e => hq (BitVec.eq_of_toNat_eq e.symm)
    simp only [hq, if_false]
    exact Vector.getElem_set_ne (h := h) ..

/-- Reading any control register after a write to one. -/
theorem State.readCr_writeCr (s : State) (r q : CReg) (v : Word) :
    (s.writeCr r v).readCr q = if q = r then crKeep r v else s.readCr q := by
  unfold State.readCr State.writeCr
  by_cases hq : q = r
  · subst hq
    simp [crKeep_crKeep]
  · have h : ¬ r.toNat = q.toNat := fun e => hq (BitVec.eq_of_toNat_eq e.symm)
    simp only [hq, if_false]
    rw [Vector.getElem_set_ne (h := h) ..]

/-- Reading any control register after a write that may be left out. -/
theorem State.readCr_writeCrOpt (s : State) (r q : CReg) (v : Option Word) :
    (s.writeCrOpt r v).readCr q = if q = r then (match v with | some w => crKeep r w | none => s.readCr q)
      else s.readCr q := by
  cases v with
  | none => simp [State.writeCrOpt, State.readCr]
  | some w => exact State.readCr_writeCr s r q w

@[simp] theorem State.readGr_advance (s : State) (q : GReg) : s.advance.readGr q = s.readGr q := rfl

@[simp] theorem State.readGr_setIaOfs (s : State) (v : Word) (q : GReg) : (s.setIaOfs v).readGr q = s.readGr q := rfl

@[simp] theorem State.readGr_enterSeg (s : State) (v : Word) (q : GReg) : (s.enterSeg v).readGr q = s.readGr q := rfl

@[simp] theorem State.readGr_setStatusBit (s : State) (i : Nat) (v : Bool) (q : GReg) :
    (s.setStatusBit i v).readGr q = s.readGr q := rfl

@[simp] theorem State.readGr_setSt (s : State) (w : Word) (q : GReg) : (s.setSt w).readGr q = s.readGr q := rfl

@[simp] theorem State.readGr_writeSr (s : State) (r : SReg) (v : Word) (q : GReg) :
    (s.writeSr r v).readGr q = s.readGr q := rfl

@[simp] theorem State.readGr_writeCr (s : State) (c : CReg) (v : Word) (q : GReg) :
    (s.writeCr c v).readGr q = s.readGr q := rfl

@[simp] theorem State.readGr_takeTrap (s : State) (t : Trap) (q : GReg) : (s.takeTrap t).readGr q = s.readGr q :=
  State.readGr_congr (by simp) q

@[simp] theorem State.readSr_takeTrap (s : State) (t : Trap) (q : SReg) : (s.takeTrap t).readSr q = s.readSr q :=
  State.readSr_congr (by simp) q

@[simp] theorem State.readSr_result (s : State) (r : GReg) (v : Word) (q : SReg) :
    (s.result r v).readSr q = s.readSr q := rfl

@[simp] theorem State.readCr_result (s : State) (r : GReg) (v : Word) (c : CReg) :
    (s.result r v).readCr c = s.readCr c := rfl

/-- Reading any general register after an instruction's result. -/
theorem State.readGr_result (s : State) (r q : GReg) (v : Word) :
    (s.result r v).readGr q = if q = r then (if r = 0#4 then 0#32 else v) else s.readGr q :=
  State.readGr_writeGr s r q v

/-- Reading any general register after a base register modification. -/
theorem State.readGr_writeBase (s : State) (b q : GReg) (v : Option Word) :
    (s.writeBase b v).readGr q =
      match v with
      | some w => if q = b then (if b = 0#4 then 0#32 else w) else s.readGr q
      | none => s.readGr q := by
  cases v with
  | none => rfl
  | some w => exact State.readGr_writeGr s b q w

/-- What the bits of a status word are after one is set. -/
theorem stBit_setStBit (w : Word) {i k : Nat} (hi : i < 32) (hk : k < 32) (v : Bool) :
    stBit (setStBit w i v) k = if k = i then v else stBit w k := by
  have key : (1#32 <<< (31 - i)).getLsbD (31 - k) = decide (k = i) := by
    rw [BitVec.getLsbD_shiftLeft, BitVec.getLsbD_one]
    by_cases h : k = i
    · subst h
      simp
      omega
    · simp only [h, decide_false]
      by_cases h3 : 31 - k < 31 - i
      · simp [h3]
      · have : ¬ 31 - k - (31 - i) = 0 := by omega
        simp [this]
  have hk' : 31 - k < 32 := by omega
  unfold stBit setStBit
  cases v with
  | false =>
    simp only [Bool.false_eq_true, if_false, BitVec.getLsbD_and, BitVec.getLsbD_not, key]
    by_cases h : k = i <;> simp [h, hk']
  | true =>
    simp only [if_true, BitVec.getLsbD_or, key]
    by_cases h : k = i <;> simp [h]

/-- The trap state (60_exceptions.md R275): ST is zero. -/
@[simp] theorem State.takeTrap_st (s : State) (t : Trap) : (s.takeTrap t).st = 0#32 := by
  simp [State.takeTrap]

@[simp] theorem State.readCr_setSt (s : State) (w : Word) (c : CReg) : (s.setSt w).readCr c = s.readCr c := rfl

@[simp] theorem State.readCr_setIaSeg (s : State) (v : Word) (c : CReg) : (s.setIaSeg v).readCr c = s.readCr c := rfl

@[simp] theorem State.readCr_setIaOfs (s : State) (v : Word) (c : CReg) : (s.setIaOfs v).readCr c = s.readCr c := rfl

/-- Reading any control register after a trap is taken. -/
theorem State.readCr_takeTrap (s : State) (t : Trap) (c : CReg) :
    (s.takeTrap t).readCr c =
      if c = 22#5 then t.p2.getD (s.readCr 22#5)
      else if c = 21#5 then t.p1.getD (s.readCr 21#5)
      else if c = 20#5 then t.p0.getD (s.readCr 20#5)
      else if c = 19#5 then s.iaOfs
      else if c = 18#5 then s.iaSeg
      else if c = 17#5 then s.st
      else s.readCr c := by
  unfold State.takeTrap
  simp only [State.readCr_setIaOfs, State.readCr_setIaSeg, State.readCr_setSt, State.readCr_writeCrOpt,
    State.readCr_writeCr]
  by_cases h22 : c = 22#5
  · subst h22
    cases t.p2 with
    | none => simp
    | some w => simp
  · by_cases h21 : c = 21#5
    · subst h21
      cases t.p1 with
      | none => simp
      | some w => simp
    · by_cases h20 : c = 20#5
      · subst h20
        cases t.p0 with
        | none => simp
        | some w => simp
      · simp only [h22, h21, h20, if_false]
        by_cases h19 : c = 19#5
        · subst h19
          simp
        · by_cases h18 : c = 18#5
          · subst h18
            simp
          · by_cases h17 : c = 17#5
            · subst h17
              simp
            · simp only [h19, h18, h17, if_false]

@[simp] theorem State.takeTrap_iaSeg (s : State) (t : Trap) : (s.takeTrap t).iaSeg = 0#32 := by
  simp [State.takeTrap]

@[simp] theorem State.takeTrap_iaOfs (s : State) (t : Trap) :
    (s.takeTrap t).iaOfs = s.trapVector t.id &&& 0xFFFFFFFC#32 := by
  simp [State.takeTrap]

end Sys2Proof.Machine
end

