-- ==== Sys2Proof/Laws/Ops.lean ====
section
/-! SUPPORT. What each shared operation can do, once: results, effective addresses, translation, accesses to memory,
operands. -/

namespace Sys2Proof.Machine

/-! Results and effective addresses. -/

/-- An instruction's result: GR[r], IA-OFS, and nothing else. -/
theorem result_spec (s : State) (r : GReg) (v : Word) : Result r v s (s.result r v) := by
  refine ⟨by simp [State.readGr_result], rfl, ?_⟩
  constructor <;> intros <;> first | rfl | exact ⟨rfl, rfl⟩ | skip
  rename_i q hq
  rw [State.readGr_result, if_neg (by simpa using hq)]

/-- Nothing but IA-OFS changes. -/
theorem frame_advance (s : State) : Frame {} s s.advance := by
  constructor <;> intros <;> first | rfl | exact ⟨rfl, rfl⟩

/-- Nothing changes. -/
theorem frame_refl (w : Writes) (s : State) : Frame w s s := by
  constructor <;> intros <;> first | rfl | exact ⟨rfl, rfl⟩

theorem effAddr_ofs (m : Bool) (b : GReg) (disp : Word) (s : State) :
    (effAddr m (s.readGr b) disp).ofs = accessOfs m b disp s := by
  unfold effAddr accessOfs
  cases m with
  | false => simp
  | true =>
    by_cases h : disp.toInt < 0
    · have h' : ¬ 0 ≤ disp.toInt := by omega
      simp [h, h']
    · have h' : 0 ≤ disp.toInt := by omega
      simp [h, h']

theorem effAddr_newBase (m : Bool) (base disp : Word) :
    (effAddr m base disp).newBase = if m then some (base + disp) else none := by
  unfold effAddr
  cases m with
  | false => simp
  | true => by_cases h : disp.toInt < 0 <;> simp [h]

/-- The base register after an addressing form, in the state that wrote it. -/
theorem readGr_writeBase_effAddr (s t : State) (m : Bool) (b q : GReg) (disp : Word)
    (ht : ∀ q, t.readGr q = s.readGr q) :
    (t.writeBase b (effAddr m (s.readGr b) disp).newBase).readGr q =
      if q = b then newBaseValue m b disp s else s.readGr q := by
  rw [State.readGr_writeBase, effAddr_newBase]
  unfold newBaseValue
  cases m with
  | false =>
    by_cases h : q = b
    · simp [h, ht]
    · simp [h, ht]
  | true =>
    by_cases h : q = b
    · subst h
      by_cases h0 : q = 0#4
      · subst h0
        rfl
      · simp [h0]
    · simp [h, ht]

/-! Translation. -/

/-- A tag as a number is a tag. -/
theorem tlbKey_inj {a b : Word} {p q : BitVec (32 - Config.pageBits)} (h : tlbKey a p = tlbKey b q) :
    a = b ∧ p = q := by
  unfold tlbKey at h
  have hp := p.isLt
  have hq := q.isLt
  simp only [Config.pageBits] at *
  constructor <;> apply BitVec.eq_of_toNat_eq <;> omega

/-- A page's address as a number. -/
theorem pageAddr_eq (p : BitVec (32 - Config.pageBits)) (x : Word) :
    pageAddr p x = BitVec.ofNat 32 (p.toNat * 2 ^ Config.pageBits + x.toNat % 2 ^ Config.pageBits) := by
  have hp := p.isLt
  unfold pageAddr
  simp only [Config.pageBits] at *
  apply BitVec.eq_of_toNat_eq
  have h1 : (BitVec.setWidth 32 p <<< 12).toNat = p.toNat <<< 12 := by
    rw [BitVec.toNat_shiftLeft, BitVec.toNat_setWidth, Nat.shiftLeft_eq, Nat.shiftLeft_eq]
    omega
  have h2 : ((x.extractLsb' 0 12).setWidth 32).toNat = x.toNat % 2 ^ 12 := by
    rw [BitVec.toNat_setWidth, BitVec.extractLsb'_toNat, Nat.shiftRight_zero]
    omega
  rw [BitVec.toNat_or, h1, h2, ← Nat.shiftLeft_add_eq_or_of_lt (Nat.mod_lt _ (by decide)), Nat.shiftLeft_eq,
    BitVec.toNat_ofNat]
  omega

/-- An entry found has the tag looked for. -/
theorem tlbFind_tag {s : State} {side : TlbSide} {seg ofs : Word} {e : TlbEntry}
    (h : s.tlbFind side seg ofs = some e) : e.seg = seg ∧ e.vpn = vpnOf ofs := by
  have hk := List.find?_some h
  exact tlbKey_inj (of_decide_eq_true hk)

theorem regionOf_ram {p : Word} (h : Writable p) : regionOf p = .ram := by
  unfold regionOf
  exact if_pos h

theorem regionOf_pdc {p : Word} (h : 0xF0000000 ≤ p.toNat) (h' : p.toNat < 0xF1000000) : regionOf p = .pdc := by
  unfold regionOf Config.memSize
  rw [if_neg (by omega), if_neg (by omega), if_pos h']

theorem regionOf_unassigned {p : Word} (h : 0xF1000000 ≤ p.toNat) (h' : p.toNat < 0xFF000000) :
    regionOf p = .unassigned := by
  unfold regionOf Config.memSize
  rw [if_neg (by omega), if_neg (by omega), if_neg (by omega), if_pos h']

theorem regionOf_io {p : Word} (h : 0xFF000000 ≤ p.toNat) : regionOf p = .io := by
  unfold regionOf Config.memSize
  rw [if_neg (by omega), if_neg (by omega), if_neg (by omega), if_neg (by omega)]

@[simp] theorem platformRead_eq (p : Word) (w : Width) : platformRead p w = .error (readStop p) := rfl

@[simp] theorem platformWrite_eq (s : State) (p : Word) (w : Width) (v : Word) :
    s.platformWrite p w v = .error (writeStop p) := rfl

theorem physRead_ok {s : State} {p : Word} (w : Width) (h : Readable s p) :
    s.physRead p w = .ok (s.mem.read p.toNat w) := by
  unfold State.physRead
  rcases h with h | ⟨h, h', hw⟩
  · rw [regionOf_ram h]
  · rw [regionOf_pdc h h']
    simp [State.pdcPlaced, hw]

/-- A read of a place with nothing behind it. -/
theorem physRead_stops {s : State} {p : Word} {o : Host.Outcome State Fault Refusal} (w : Width) (u : State)
    (h : StopsAt s .read p o) : ∃ e, s.physRead p w = .error e ∧ conclude u (.error e) = o := by
  unfold State.physRead
  cases h with
  | pdcRead _ h1 h2 hw =>
    rw [regionOf_pdc h1 h2]
    exact ⟨_, by simp [State.pdcPlaced, hw]; rfl, by simp [readStop, regionOf_pdc h1 h2, conclude]⟩
  | pdcWrite hk => cases hk
  | unassigned h1 h2 =>
    rw [regionOf_unassigned h1 h2]
    exact ⟨_, platformRead_eq .., by simp [readStop, regionOf_unassigned h1 h2, conclude]⟩
  | io h1 =>
    rw [regionOf_io h1]
    exact ⟨_, platformRead_eq .., by simp [readStop, regionOf_io h1, conclude]⟩

/-- A write to a place with nothing behind it. -/
theorem physWrite_stops {s : State} {p : Word} {o : Host.Outcome State Fault Refusal} (w : Width) (v : Word)
    (u : State) (h : StopsAt s .write p o) : ∃ e, s.physWrite p w v = .error e ∧ conclude u (.error e) = o := by
  unfold State.physWrite
  cases h with
  | pdcRead hk => cases hk
  | pdcWrite _ h1 h2 =>
    rw [regionOf_pdc h1 h2]
    exact ⟨_, platformWrite_eq .., by simp [writeStop, regionOf_pdc h1 h2, conclude]⟩
  | unassigned h1 h2 =>
    rw [regionOf_unassigned h1 h2]
    exact ⟨_, platformWrite_eq .., by simp [writeStop, readStop, regionOf_unassigned h1 h2, conclude]⟩
  | io h1 =>
    rw [regionOf_io h1]
    exact ⟨_, platformWrite_eq .., by simp [writeStop, readStop, regionOf_io h1, conclude]⟩

/-- The number the bytes of an access are is the value read. -/
theorem bytesAre_iff (m : Memory) (a : Nat) (w : Width) (v : Word) : BytesAre m a w v ↔ v = m.read a w := by
  unfold BytesAre
  have hb : ∀ (b : Byte) (n : Nat), b = BitVec.ofNat 8 n ↔ b.toNat = n % 256 := by
    intro b n
    rw [← BitVec.toNat_inj, BitVec.toNat_ofNat]
  cases w
  · rw [← BitVec.toNat_inj]
    simp only [Memory.read, toNat_wordOfBytes, accessBytes, hb]
    have h0 := (m.readByte a).isLt
    constructor
    · rintro ⟨hv, h⟩
      have := h 0 (by omega)
      simp at this hv ⊢
      omega
    · intro h
      refine ⟨by simp at h ⊢; omega, fun k hk => ?_⟩
      obtain rfl : k = 0 := by omega
      simp at h ⊢
      omega
  · rw [← BitVec.toNat_inj]
    simp only [Memory.read, toNat_wordOfBytes, accessBytes, hb]
    have h0 := (m.readByte a).isLt
    have h1 := (m.readByte (a + 1)).isLt
    constructor
    · rintro ⟨hv, h⟩
      have g0 := h 0 (by omega)
      have g1 := h 1 (by omega)
      simp at g0 g1 hv ⊢
      omega
    · intro h
      simp at h
      refine ⟨by simp; omega, fun k hk => ?_⟩
      obtain rfl | rfl : k = 0 ∨ k = 1 := by omega
      · simp; omega
      · simp; omega
  · rw [← BitVec.toNat_inj]
    simp only [Memory.read, toNat_wordOfBytes, accessBytes, hb]
    have h0 := (m.readByte a).isLt
    have h1 := (m.readByte (a + 1)).isLt
    have h2 := (m.readByte (a + 2)).isLt
    have h3 := (m.readByte (a + 3)).isLt
    constructor
    · rintro ⟨hv, h⟩
      have g0 := h 0 (by omega)
      have g1 := h 1 (by omega)
      have g2 := h 2 (by omega)
      have g3 := h 3 (by omega)
      simp at g0 g1 g2 g3 hv ⊢
      omega
    · intro h
      refine ⟨by simpa using v.isLt, fun k hk => ?_⟩
      obtain rfl | rfl | rfl | rfl : k = 0 ∨ k = 1 ∨ k = 2 ∨ k = 3 := by omega
      · simp; omega
      · simp; omega
      · simp; omega
      · simp; omega

/-- The bytes of an access are some number. -/
theorem bytesAre_read (m : Memory) (a : Nat) (w : Width) : BytesAre m a w (m.read a w) := (bytesAre_iff ..).mpr rfl

theorem physWrite_ok {s : State} {p : Word} (w : Width) (v : Word) (h : Writable p) :
    s.physWrite p w v = .ok (s.storeBytes p w v) := by
  unfold State.physWrite
  rw [regionOf_ram h]

theorem bypasses_iff (seg : Word) : bypasses seg = true ↔ seg = 0#32 := by
  simp [bypasses, Config.seg0Bypass]

theorem aligned_iff (ofs : Word) (w : Width) : aligned ofs w = true ↔ ofs.toNat % accessBytes w = 0 := by
  simp [aligned]

/-- An access that passes every check reaches its physical address. -/
theorem dataAddr_ok {s : State} {kind : Access} {seg ofs : Word} {w : Width} {p : Word} (instr : Word)
    (h : Reaches s kind seg ofs w p) : s.dataAddr kind instr seg ofs w = .ok p := by
  obtain ⟨ha, h⟩ := h
  unfold State.dataAddr
  rw [if_pos ((aligned_iff ofs w).mpr ha)]
  unfold State.dataTranslate State.effSeg
  rcases h with ⟨hd, rfl⟩ | ⟨hd, hs, e, hl, hr, hp, ht, hdirty, hb, rfl⟩
  · rcases hd with hd | hd
    · simp [hd]
    · subst hd
      by_cases hd : s.dBit = true
      · simp [hd, bypasses, Config.seg0Bypass]
      · simp [hd]
  · have hb' : bypasses seg = false := by
      cases hb : bypasses seg with
      | false => rfl
      | true => exact absurd ((bypasses_iff seg).mp hb) hs
    have h15 : ¬ (s.pBit = true ∧ s.pidAllowed kind e.pid = false) := fun ⟨a, b⟩ => by simp [hp a] at b
    have hdd : ¬ (kind = .write ∧ e.d = true) := fun ⟨a, b⟩ => by simp [hdirty a] at b
    simp only [hd, if_true, Bool.true_eq_false, if_false, hb', Bool.false_eq_true, hl, State.checkEntry, hr, h15, ht,
      hdd, hb]

theorem memRead_ok {s : State} {seg ofs : Word} {w : Width} {v : Word} (instr : Word) (h : ReadGives s seg ofs w v) :
    s.memRead instr seg ofs w = .ok v := by
  obtain ⟨p, hp, hr, hv⟩ := h
  unfold State.memRead
  rw [dataAddr_ok instr hp, (bytesAre_iff ..).mp hv]
  exact physRead_ok w hr

theorem memWrite_ok {s : State} {seg ofs : Word} {w : Width} {p : Word} (instr v : Word)
    (h : Reaches s .write seg ofs w p) (hw : Writable p) :
    s.memWrite instr seg ofs w v = .ok (s.storeBytes p w v) := by
  unfold State.memWrite
  rw [dataAddr_ok instr h]
  exact physWrite_ok w v hw

theorem dataAddr_misaligned {s : State} {ofs : Word} {w : Width} (kind : Access) (instr seg : Word)
    (h : ofs.toNat % accessBytes w ≠ 0) :
    s.dataAddr kind instr seg ofs w = raiseData .alignment instr (if s.dBit then seg else 0#32) ofs := by
  unfold State.dataAddr
  rw [if_neg (fun h' => h ((aligned_iff ofs w).mp h'))]
  rfl

/-- A translated access is decided by the page's DTLB entry. -/
theorem dataAddr_translated {s : State} {seg ofs : Word} {w : Width} (kind : Access) (instr : Word)
    (ha : ofs.toNat % accessBytes w = 0) (hd : s.dBit = true) (hs : seg ≠ 0#32) :
    s.dataAddr kind instr seg ofs w =
      match s.tlbLookup .data seg ofs with
      | none => raiseData .dataTlbMiss instr seg ofs
      | some e => s.checkEntry kind e instr seg ofs := by
  have hb' : bypasses seg = false := by
    cases hb : bypasses seg with
    | false => rfl
    | true => exact absurd ((bypasses_iff seg).mp hb) hs
  unfold State.dataAddr State.dataTranslate State.effSeg
  cases hl : s.tlbLookup .data seg ofs <;>
    simp only [(aligned_iff ofs w).mpr ha, if_true, hd, Bool.true_eq_false, if_false, hb', Bool.false_eq_true, hl]

/-- What the checks of an entry can answer. -/
theorem checkEntry_cases (s : State) (kind : Access) (e : TlbEntry) (instr seg ofs : Word) :
    (∃ id, s.checkEntry kind e instr seg ofs = raiseData id instr seg ofs) ∨
      s.checkEntry kind e instr seg ofs = .ok (pageAddr e.ppn ofs) := by
  unfold State.checkEntry
  split
  · exact .inl ⟨_, rfl⟩
  · split
    · exact .inl ⟨_, rfl⟩
    · split
      · exact .inl ⟨_, rfl⟩
      · split
        · exact .inl ⟨_, rfl⟩
        · split
          · exact .inl ⟨_, rfl⟩
          · exact .inr rfl

/-! Stores. -/

@[simp] theorem noteStore_eq (s : State) (p : Word) : s.noteStore p = s := rfl

@[simp] theorem flushData_eq (s : State) (p : Word) : s.flushData p = s := rfl

@[simp] theorem purgeData_eq (s : State) (p : Word) : s.purgeData p = s := rfl

@[simp] theorem purgeInstr_eq (s : State) (p : Word) : s.purgeInstr p = s := rfl

@[simp] theorem fetchWord_eq (s : State) (p v : Word) : s.fetchWord p v = (v, s) := rfl

/-- A store changes memory in its bytes only, and the reservation flag. -/
theorem frame_storeBytes (s : State) (p : Word) (w : Width) (v : Word) :
    Frame { reservation := true, caches := true, bytes := (p.toNat, accessBytes w) } s (s.storeBytes p w v) := by
  constructor <;> intros <;> try rfl
  · exact ⟨rfl, rfl⟩
  · rename_i h
    contradiction
  · rename_i h
    contradiction
  · rename_i a ha
    exact Memory.readByte_write_outside s.mem p.toNat a v w ha

theorem storeBytes_lrValid (s : State) (p : Word) (w : Width) (v : Word) :
    (s.storeBytes p w v).lrValid = true ↔ s.lrValid = true ∧
      ¬ (p.toNat < s.lrAddr.toNat + 4 ∧ s.lrAddr.toNat < p.toNat + accessBytes w) := by
  simp only [State.storeBytes, State.breaksReservation, Bool.and_eq_true, Bool.not_eq_true', decide_eq_false_iff_not]

/-! Operands. -/

theorem memOperand_ok {s : State} {x b : Word} {dw : BitVec 2} {w : Width} (instr : Word) (hw : widthOf dw = some w)
    (h : ReadGives s (s.logicalSeg x) x w b) : s.memOperand instr dw x = .ok b := by
  unfold State.memOperand
  rw [hw]
  exact memRead_ok instr h

/-- The operands a computational instruction runs on. -/
theorem operand_ok {s : State} {r : GReg} {x : Operand} {a b : Word} (instr : Word) (h : OperandsAre s r x a b) :
    s.operand instr r x = .ok (a, b) := by
  cases x with
  | imm val => obtain ⟨rfl, rfl⟩ := h; rfl
  | reg ra rb => obtain ⟨rfl, rfl⟩ := h; rfl
  | idx dw ra rb =>
    obtain ⟨rfl, w, hw, hr⟩ := h
    simp only [State.operand, memOperand_ok instr hw hr]
  | ofs dw disp rb =>
    obtain ⟨rfl, w, hw, hr⟩ := h
    simp only [State.operand, memOperand_ok instr hw hr]

/-! Bit fields. -/

/-- A bit of a field's mask. -/
theorem getLsbD_fieldMask (len sh k : Nat) :
    (fieldMask len sh).getLsbD k = decide (k < 32 ∧ sh ≤ k ∧ k < sh + len) := by
  unfold fieldMask
  rw [BitVec.getLsbD_ofNat, Nat.testBit_mul_two_pow, Nat.testBit_two_pow_sub_one]
  by_cases h : sh ≤ k
  · simp [h, show k - sh < len ↔ k < sh + len by omega]
  · simp [h]

/-! The parameters at their defaults. -/

@[simp] theorem borrowFlag_eq (v : Bool) : borrowFlag v = v := rfl

@[simp] theorem gateField_eq (ar : BitVec 4) : gateField ar = arPl2 ar := rfl

@[simp] theorem fieldRefusal_eq (len sh : Nat) :
    fieldRefusal len sh = if 32 < sh + len then some .bitFieldBeyondWord else none := by
  simp [fieldRefusal, Config.bitfLen0]

/-! Outcomes. -/

@[simp] theorem conclude_ok (s t : State) : conclude s (.ok t) = .next t := rfl

@[simp] theorem conclude_trap (s : State) (t : Trap) : conclude s (.error (.trap t)) = .next (s.takeTrap t) := rfl

@[simp] theorem conclude_fault (s : State) (f : Fault) : conclude s (.error (.fault f)) = .fault f := rfl

@[simp] theorem conclude_refuse (s : State) (r : Refusal) : conclude s (.error (.refuse r)) = .refused r := rfl

/-- A next state of a concluded operation is its own or that of the trap it raised. -/
theorem conclude_next {s t : State} {r : Except Stop State} (h : conclude s r = .next t) :
    r = .ok t ∨ ∃ tr, r = .error (.trap tr) ∧ t = s.takeTrap tr := by
  unfold conclude at h
  split at h
  · left
    cases h
    rfl
  · right
    cases h
    exact ⟨_, rfl, rfl⟩
  · cases h
  · cases h

theorem privileged_priv {s : State} (h : s.xBit = false) (instr : Word) (r : Except Stop State) :
    privileged s instr r = r := by
  simp [privileged, h]

theorem privileged_user {s : State} (h : s.xBit = true) (instr : Word) (r : Except Stop State) :
    privileged s instr r = raiseInstr .privilegedOperation instr := by
  simp [privileged, h]

end Sys2Proof.Machine
end

