-- ==== Sys2Proof/Tests/Slice0.lean ====
section
/-! SUPPORT. Tests: the ill-formed terms refused, a word of every row of the opcode table decoded, single steps with
the results 95_test_vectors.md gives, and for each statement a state and operands that meet its hypotheses. -/

namespace Sys2Proof.Machine

/-! Well-formedness: a segment register field names one of eight registers (30_encoding.md R122). -/

theorem test_wf_refuses_be : (Instr.be 0 8 1).wf = false := by decide

theorem test_wf_refuses_ble : (Instr.ble 0 15 1).wf = false := by decide

theorem test_wf_refuses_itlbA : (Instr.itlbA 1 true 8 2).wf = false := by decide

theorem test_wf_refuses_itlbP : (Instr.itlbP 1 true 9 2).wf = false := by decide

theorem test_wf_refuses_ptlb : (Instr.ptlb false 8 2).wf = false := by decide

theorem test_wf_refuses_pca : (Instr.pca true false 12 2).wf = false := by decide

theorem test_wf_accepts : (Instr.be 0 7 1).wf = true ∧ (Instr.pca true false 0 2).wf = true := by decide

/-! Decoding: for every row a word written out, bit by bit, from the row's encoding (30_encoding.md R101 to R120),
with a value of its own in each field. -/

theorem test_decode_brk :
    decodeWord 0b00000000110000000110010100010100 = .ok (.brk 3 0x6514) := by decide

theorem test_decode_immediate :
    decodeWord 0b00000110110000110001011100100000 = .ok (.ldil 11 0x31720) ∧
      decodeWord 0b00001000101101001000111111000011 = .ok (.addil 2 0x348fc3) ∧
      decodeWord 0b00001100100000010111011001111000 = .ok (.ldoImm 2 0x17678) ∧
      decodeWord 0b00001110100010010000000001000010 = .ok (.ldoIdx 10 1 4 2) ∧
      decodeWord 0b00001101110011100001000111110100 = .ok (.ldoOfs 7 2 0x11f 4) := by decide

theorem test_decode_bit_fields :
    decodeWord 0b00010000100000000000000000000111 = .ok (.lsid 2 7) ∧
      decodeWord 0b00010100010000000010011000101010 = .ok (.extr 1 false false 19 2 10) ∧
      decodeWord 0b00011010101000000001000000101110 = .ok (.depReg 10 true false 8 2 14) ∧
      decodeWord 0b00011000111110000000101100100010 = .ok (.depImm 3 true true 5 18 2) ∧
      decodeWord 0b00011110100100000001001011101011 = .ok (.dsr 10 true 18 14 11) := by decide

theorem test_decode_shla :
    decodeWord 0b00100000110000000000001011001010 = .ok (.shla 3 false false 2 12 10) := by decide

theorem test_decode_cmr :
    decodeWord 0b00100100010000000000000010100100 = .ok (.cmrEq 1 10 4) ∧
      decodeWord 0b00100110000010000000000010110111 = .ok (.cmrLt 8 11 7) ∧
      decodeWord 0b00100111010100000000000010001010 = .ok (.cmrGt 13 8 10) ∧
      decodeWord 0b00100110000110000000000001010100 = .ok (.cmrEv 8 5 4) ∧
      decodeWord 0b00100111011000000000000000111100 = .ok (.cmrNe 13 3 12) ∧
      decodeWord 0b00100111011010000000000001000010 = .ok (.cmrLe 13 4 2) ∧
      decodeWord 0b00100110101100000000000001011000 = .ok (.cmrGe 10 5 8) ∧
      decodeWord 0b00100111001110000000000010000101 = .ok (.cmrOd 12 8 5) := by decide

theorem test_decode_moves :
    decodeWord 0b00101010100000000000000000000001 = .ok (.mrFromSr 10 1) ∧
      decodeWord 0b00101000100100000000000000000110 = .ok (.mrFromCr 2 6) ∧
      decodeWord 0b00101011011000000000000000000011 = .ok (.mrToSr 13 3) ∧
      decodeWord 0b00101000111100000000000000011110 = .ok (.mrToCr 3 30) ∧
      decodeWord 0b00101110000000000000000000000111 = .ok (.mst 8 7) ∧
      decodeWord 0b00101100010100000000000000111110 = .ok (.mstSet 1 62) ∧
      decodeWord 0b00101110111000000000000000000101 = .ok (.mstClear 11 5) := by decide

theorem test_decode_add :
    decodeWord 0b01000011011100101100011111111100 = .ok (.addImm 13 true true 0x2c7fc) ∧
      decodeWord 0b01000010101101000000000000101110 = .ok (.addReg 10 true true 2 14) ∧
      decodeWord 0b01000000101110110000000010111100 = .ok (.addIdx 2 true true 3 11 12) ∧
      decodeWord 0b01000011001111101011011110000111 = .ok (.addOfs 12 true true 2 0xb78 7) := by decide

theorem test_decode_addc :
    decodeWord 0b01000110111000111100001100111010 = .ok (.addcImm 11 true false 0x3c33a) ∧
      decodeWord 0b01000110001001000000000010100010 = .ok (.addcReg 8 true false 10 2) ∧
      decodeWord 0b01000110000010100000000000111100 = .ok (.addcIdx 8 false false 2 3 12) ∧
      decodeWord 0b01000101001111100001010010110011 = .ok (.addcOfs 4 true true 2 0x14b 3) := by decide

theorem test_decode_sub :
    decodeWord 0b01001010001100111000100010010110 = .ok (.subImm 8 true true 0x38896) ∧
      decodeWord 0b01001000111101000000000011000111 = .ok (.subReg 3 true true 12 7) ∧
      decodeWord 0b01001010111010010000000000100011 = .ok (.subIdx 11 true false 1 2 3) ∧
      decodeWord 0b01001000110011010111110000111110 = .ok (.subOfs 3 false false 1 0x7c3 14) := by decide

theorem test_decode_subc :
    decodeWord 0b01001110100100010010000010110011 = .ok (.subcImm 10 false true 0x120b3) ∧
      decodeWord 0b01001100010101000000000010100011 = .ok (.subcReg 1 false true 10 3) ∧
      decodeWord 0b01001111000110110000000011010111 = .ok (.subcIdx 12 false true 3 13 7) ∧
      decodeWord 0b01001101111111010111101101011011 = .ok (.subcOfs 7 true true 1 0x7b5 11) := by decide

theorem test_decode_and :
    decodeWord 0b01010001110000000100010011110111 = .ok (.andImm 7 false false 0x44f7) ∧
      decodeWord 0b01010001001001000000000000101010 = .ok (.andReg 4 true false 2 10) ∧
      decodeWord 0b01010000010010110000000000101010 = .ok (.andIdx 1 false false 3 2 10) ∧
      decodeWord 0b01010000010011110010011000011011 = .ok (.andOfs 1 false false 3 0x261 11) := by decide

theorem test_decode_or :
    decodeWord 0b01010101011100011110010110001000 = .ok (.orImm 5 true true 0x1e588) ∧
      decodeWord 0b01010100100101000000000010000101 = .ok (.orReg 2 false true 8 5) ∧
      decodeWord 0b01010100100010110000000011000101 = .ok (.orIdx 2 false false 3 12 5) ∧
      decodeWord 0b01010110000011011111001110000011 = .ok (.orOfs 8 false false 1 0xf38 3) := by decide

theorem test_decode_xor :
    decodeWord 0b01011011000100111110100111111101 = .ok (.xorImm 12 false true 0x3e9fd) ∧
      decodeWord 0b01011010110101000000000000111101 = .ok (.xorReg 11 false true 3 13) ∧
      decodeWord 0b01011001001010110000000011011110 = .ok (.xorIdx 4 true false 3 13 14) ∧
      decodeWord 0b01011001000111111100110110111000 = .ok (.xorOfs 4 false true 3 0xcdb 8) := by decide

theorem test_decode_cmp :
    decodeWord 0b01011111000100111111010101011011 = .ok (.cmpImm 12 1 0x3f55b) ∧
      decodeWord 0b01011100011001000000000010000101 = .ok (.cmpReg 1 2 8 5) ∧
      decodeWord 0b01011101001110110000000010001101 = .ok (.cmpIdx 4 3 3 8 13) ∧
      decodeWord 0b01011111001011100001010010100100 = .ok (.cmpOfs 12 2 2 0x14a 4) := by decide

theorem test_decode_cmpu :
    decodeWord 0b01100000100100011110000101011101 = .ok (.cmpuImm 2 1 0x1e15d) ∧
      decodeWord 0b01100001001001000000000010001010 = .ok (.cmpuReg 4 2 8 10) ∧
      decodeWord 0b01100010100110100000000010111101 = .ok (.cmpuIdx 10 1 2 11 13) ∧
      decodeWord 0b01100010110111110001111011000111 = .ok (.cmpuOfs 11 1 3 0x1ec 7) := by decide

theorem test_decode_loads :
    decodeWord 0b01101011010010000000000010000011 = .ok (.ldbIdx 13 false 8 3) ∧
      decodeWord 0b01101001110110010000000000101101 = .ok (.ldhIdx 7 true 2 13) ∧
      decodeWord 0b01101011000110100000000010000111 = .ok (.ldwIdx 12 true 8 7) ∧
      decodeWord 0b01101011000011001011100110010011 = .ok (.ldbOfs 12 false 0xb99 3) ∧
      decodeWord 0b01101000110011010000011100011010 = .ok (.ldhOfs 3 false 0x71 10) ∧
      decodeWord 0b01101010000011101001110010101110 = .ok (.ldwOfs 8 false 0x9ca 14) := by decide

theorem test_decode_stores :
    decodeWord 0b01101110100111001010100001010011 = .ok (.stb 10 true 0xa85 3) ∧
      decodeWord 0b01101100110011010000001110111101 = .ok (.sth 3 false 0x3b 13) ∧
      decodeWord 0b01101111000011101000011011010011 = .ok (.stw 12 false 0x86d 3) := by decide

theorem test_decode_reserved :
    decodeWord 0b01110001110010100000000011100100 = .ok (.ldwrIdx 7 14 4) ∧
      decodeWord 0b01110011100011101101111111000100 = .ok (.ldwrOfs 14 0xdfc 4) ∧
      decodeWord 0b01110100010011100100000010000100 = .ok (.stwc 1 0x408 4) := by decide

theorem test_decode_branches :
    decodeWord 0b10000001011000000001001100001010 = .ok (.branch 5 0x20130a) ∧
      decodeWord 0b10000101001100001110000000100010 = .ok (.gate 4 0x30e022) ∧
      decodeWord 0b10001010100000000000000000000101 = .ok (.br 10 5) ∧
      decodeWord 0b10001100000000000000000001111110 = .ok (.bv 7 14) ∧
      decodeWord 0b10010000100001100011100100011100 = .ok (.be 0x8639 1 12) ∧
      decodeWord 0b10010101011010100100011101001011 = .ok (.ble 0x16a47 4 11) ∧
      decodeWord 0b10011000000000000000000010101110 = .ok (.bve 10 14) := by decide

theorem test_decode_cbr :
    decodeWord 0b10011100011100111100000001111110 = .ok (.cbrEq 0x73c0 7 14) ∧
      decodeWord 0b10011100111101010111100000110001 = .ok (.cbrLt 0x7578 3 1) ∧
      decodeWord 0b10011101011011111011100110001101 = .ok (.cbrGt 0x6fb9 8 13) ∧
      decodeWord 0b10011101100101110111000110100001 = .ok (.cbrLs 0x1771 10 1) ∧
      decodeWord 0b10011110011000110101011011010011 = .ok (.cbrNe 0x6356 13 3) ∧
      decodeWord 0b10011110100101100001000000111000 = .ok (.cbrLe 0x1610 3 8) ∧
      decodeWord 0b10011111010011110011111111000010 = .ok (.cbrGe 0x4f3f 12 2) ∧
      decodeWord 0b10011111110001110011101100011011 = .ok (.cbrHi 0x473b 1 11) := by decide

theorem test_decode_extended :
    decodeWord 0b11000010000011000000111010010100 = .ok (.ldeb 8 false 3 0xe9 4) ∧
      decodeWord 0b11000001000101011100010111000010 = .ok (.ldeh 4 true 1 0xc5c 2) ∧
      decodeWord 0b11000010000001100111000110001010 = .ok (.ldew 8 false 1 0x718 10) ∧
      decodeWord 0b11000010101011000000000001011000 = .ok (.ldexb 10 false 3 5 8) ∧
      decodeWord 0b11000011011111010000000001001100 = .ok (.ldexh 13 true 3 4 12) ∧
      decodeWord 0b11000001011010100000000000110111 = .ok (.ldexw 5 false 2 3 7) ∧
      decodeWord 0b11000100100110000101000011111011 = .ok (.steb 2 true 2 0x50f 11) ∧
      decodeWord 0b11000101000101010011011010001011 = .ok (.steh 4 true 1 0x368 11) ∧
      decodeWord 0b11000101010001101111000010011100 = .ok (.stew 5 false 1 0xf09 12) := by decide

theorem test_decode_absolute :
    decodeWord 0b11001010110100100100100110110101 = .ok (.ldwa 11 true 0x249b 5) ∧
      decodeWord 0b11001000111100000000000001001100 = .ok (.ldwax 3 true 4 12) ∧
      decodeWord 0b11001100100111100010100010111000 = .ok (.stwa 2 true 0xe28b 8) := by decide

theorem test_decode_address :
    decodeWord 0b11100100110010110000000011100100 = .ok (.ldpaIdx 3 3 14 4) ∧
      decodeWord 0b11100100110011110110111010000111 = .ok (.ldpaOfs 3 3 0x6e8 7) ∧
      decodeWord 0b11101001110110010000000011001000 = .ok (.prb 7 false true true 1 12 8) := by decide

theorem test_decode_tlb :
    decodeWord 0b11101110000000000000000001001010 = .ok (.itlbA 8 false 4 10) ∧
      decodeWord 0b11101101010100000000000000011101 = .ok (.itlbP 5 false 1 13) ∧
      decodeWord 0b11110000000000000000000000010010 = .ok (.ptlb false 1 2) ∧
      decodeWord 0b11110100001100000000000000011101 = .ok (.pca true true 1 13) := by decide

theorem test_decode_control :
    decodeWord 0b11111000110000000000000001011101 = .ok (.diag 3 5 13) ∧
      decodeWord 0b11111100000000000000000000000000 = .ok .rfi := by decide

/-- A word that is no row's: opcode 0x0C (R121), LDW in mode 1 (R123), MST mode 3 (R223), BR with a reserved bit
(R122), fewer than four bytes. -/
theorem test_decode_rejects :
    decodeWord 0x30000123 = .error .unassignedOpcode ∧ decodeWord 0x68C40045 = .error .undefinedForm ∧
      decodeWord 0x2C700000 = .error .undefinedMstMode ∧ decodeWord 0x88800015 = .error .reservedField ∧
      decode [0x0D, 0x40] = .error .truncated := by decide

/-- Four bytes in storage order, the first the most significant (20_memory.md R51): LDIL r10, 0x48D15. -/
theorem test_decode_bytes :
    decode [0x06, 0x84, 0x8D, 0x15, 0xFF] = .ok (.ldil 10 0x48D15, [0xFF]) ∧
      decodeTableWord 32 0x06848D15 = some (.ldil 10 0x48D15) := by decide

/-- Low-sign extension: the values of 95_test_vectors.md section 3.1. -/
theorem test_lse :
    lse (0x0C8 : BitVec 12) = 100 ∧ lse (0xFFE : BitVec 12) = 2047 ∧ lse (0xFFF : BitVec 12) = 0xFFFFFFFF ∧
      lse (0x001 : BitVec 12) = 0xFFFFF800 ∧ lse (0x0001 : BitVec 15) = 0xFFFFC000 ∧
      lse (0x00001 : BitVec 18) = 0xFFFE0000 ∧ lse (0x000001 : BitVec 22) = 0xFFE00000 := by decide

/-! One step: the words, start states and results are those of 95_test_vectors.md, by their numbers. -/

/-- The start state of the vectors (95_test_vectors.md section 1) with some general registers set. -/
def start (gr : List (GReg × Word)) : State :=
  gr.foldl (fun s x => s.writeGr x.1 x.2) { State.reset with iaOfs := 0x1000 }

/-- A word put into memory. -/
def State.poke (s : State) (a : Nat) (v : Word) : State := { s with mem := s.mem.write a v .word }

/-- ST put in place. -/
def State.status (s : State) (w : Word) : State := { s with st := w }

/-- An entry of a page with nothing but its address and its access rights. -/
def page (seg : Word) (vpn : BitVec 20) (ar : BitVec 4) (ppn : BitVec 20) : TlbEntry :=
  { freshEntry seg vpn with v := true, ar := ar, ppn := ppn }

/-- The word run as the next instruction: what some words of the next state are. -/
def sees (w : Nat) (s : State) (f : State → List Word) : Option (List Word) :=
  match step (s.withFetchWord 32 w) with
  | .next t => some (f t)
  | _ => none

/-- The word a memory holds. -/
def State.peek (s : State) (a : Nat) : Word := s.mem.read a .word

/-- I2, and I3: GR0 discards. -/
theorem test_ldil :
    sees 0x06BFFFFF (start []) (fun t => [t.readGr 10, t.iaOfs]) =
        some [0xFFFFFC00, 0x1004] ∧
      sees 0x043FFFFF (start []) (fun t => [t.readGr 0]) =
        some [0] := by decide

/-- I4, I5. -/
theorem test_addil :
    sees 0x0AC00345 (start [(11, 0x100), (1, 0x55)]) (fun t => [t.readGr 1, t.readGr 11]) =
        some [0x000D1500, 0x100] ∧
      sees 0x0AFFFFFF (start [(11, 0x400)]) (fun t => [t.readGr 1, t.st]) =
        some [0, 0] := by decide

/-- I9. -/
theorem test_ldo_imm :
    sees 0x0D43FFFF (start []) (fun t => [t.readGr 5]) =
        some [0xFFFFFFFF] := by decide

/-- I10. -/
theorem test_ldo_idx :
    sees 0x0D080023 (start [(2, 0x10), (3, 0xFFFFFFF8)]) (fun t => [t.readGr 4]) =
        some [8] := by decide

/-- I12, I14. -/
theorem test_ldo_ofs :
    sees 0x0FCC91FF (start [(15, 0x8000)]) (fun t => [t.readGr 15]) =
        some [0x7C8F] ∧
      sees 0x0D4C0010 (start []) (fun t => [t.readGr 5]) =
        some [0xFFFFF800] := by decide

/-- C1, C4: CB is written without L and kept with it. -/
theorem test_add_reg :
    sees 0x40440023 (start [(2, 0xFFFFFFFF), (3, 1)]) (fun t => [t.readGr 1, t.st, t.iaOfs]) =
        some [0, 0x00080000, 0x1004] ∧
      sees 0x40540023 (start [(2, 0xFFFFFFFF), (3, 1)]) (fun t => [t.readGr 1, t.st]) =
        some [0, 0] := by decide

/-- C3: the trap saves CB as it was. -/
theorem test_add_overflow :
    sees 0x40640023 ((start [(1, 0x99), (2, 0x7FFFFFFF), (3, 1)]).status 0x00080000)
        (fun t => [t.readGr 1, t.readCr 17, t.readCr 18, t.readCr 19, t.readCr 20, t.readCr 21, t.readCr 22, t.st, t.iaOfs]) =
        some [0x99, 0x00080000, 0, 0x1000, 0x40640023, 0, 0, 0, 0x100] := by decide

/-- C10, C12. -/
theorem test_add_imm :
    sees 0x4043FFFF (start [(1, 5)]) (fun t => [t.readGr 1, t.st]) =
        some [4, 0x00080000] ∧
      sees 0x40400001 (start []) (fun t => [t.readGr 1, t.st]) =
        some [0xFFFE0000, 0] := by decide

/-- C15. -/
theorem test_add_idx :
    sees 0x41890045 ((start [(6, 1), (4, 2), (5, 0x3000)]).poke 0x3000 0x00008000) (fun t => [t.readGr 6, t.st]) =
        some [0x8001, 0] := by decide

/-- C14: a byte is zero-extended. -/
theorem test_add_ofs :
    sees 0x418C0065 ((start [(6, 1), (5, 0x3000)]).poke 0x3000 0x000000FF) (fun t => [t.readGr 6, t.st]) =
        some [0x100, 0] := by decide

/-- C16, C19. -/
theorem test_addc :
    sees 0x44440023 ((start [(2, 0xFFFFFFFF)]).status 0x00080000) (fun t => [t.readGr 1, t.st]) =
        some [0, 0x00080000] ∧
      sees 0x44540023 ((start [(2, 0xFFFFFFFF)]).status 0x00080000) (fun t => [t.readGr 1, t.st]) =
        some [0, 0x00080000] := by decide

/-- C21, C26. -/
theorem test_sub :
    sees 0x48440023 (start [(2, 3), (3, 5)]) (fun t => [t.readGr 1, t.st]) =
        some [0xFFFFFFFE, 0x00080000] ∧
      sees 0x48400002 (start []) (fun t => [t.readGr 1, t.st]) =
        some [0xFFFFFFFF, 0x00080000] := by decide

/-- C27, C30. -/
theorem test_subc :
    sees 0x4C440023 ((start [(2, 5), (3, 3)]).status 0x00080000) (fun t => [t.readGr 1, t.st]) =
        some [1, 0] ∧
      sees 0x4C440023 ((start [(3, 0xFFFFFFFF)]).status 0x00080000) (fun t => [t.readGr 1, t.st]) =
        some [0, 0x00080000] := by decide

/-- F25, F28: -2^31 fits. -/
theorem test_shla :
    sees 0x20400223 (start [(2, 5), (3, 7)]) (fun t => [t.readGr 1, t.st]) =
        some [0x1B, 0] ∧
      sees 0x20500120 (start [(2, 0xC0000000)]) (fun t => [t.readGr 1]) =
        some [0x80000000] := by decide

/-- F32: an unsigned carry. -/
theorem test_shla_overflow :
    sees 0x20700123 (start [(1, 0x99), (2, 0x7FFFFFFF), (3, 2)]) (fun t => [t.readGr 1, t.readCr 20, t.iaOfs]) =
        some [0x99, 0x20700123, 0x100] := by decide

/-- G2, G3. -/
theorem test_and :
    sees 0x50540023 (start [(2, 0xFF00FF00), (3, 0x0FF00FF0)]) (fun t => [t.readGr 1]) =
        some [0xF000F000] ∧
      sees 0x50640023 (start [(2, 0xFF00FF00), (3, 0x0FF00FF0)]) (fun t => [t.readGr 1]) =
        some [0xF0FFF0FF] := by decide

/-- G6, G7. -/
theorem test_or :
    sees 0x54640023 (start [(2, 0xFF00FF00), (3, 0x0FF00FF0)]) (fun t => [t.readGr 1]) =
        some [0x000F000F] ∧
      sees 0x54540023 (start [(2, 0xFF00FF00), (3, 0x0FF00FF0)]) (fun t => [t.readGr 1]) =
        some [0xFF0FFF0F] := by decide

/-- G8, G14. -/
theorem test_xor :
    sees 0x58440023 (start [(2, 0xFF00FF00), (3, 0x0FF00FF0)]) (fun t => [t.readGr 1]) =
        some [0xF0F0F0F0] ∧
      sees 0x5843FFFF (start [(1, 0x12345678)]) (fun t => [t.readGr 1]) =
        some [0xEDCBA987] := by decide

/-- K4. -/
theorem test_cmp :
    sees 0x5C640023 (start [(1, 0x99), (2, 0x80000000), (3, 0x7FFFFFFF)]) (fun t => [t.readGr 1]) =
        some [1] ∧
      sees 0x5C540023 (start [(1, 0x99), (2, 0x80000000), (3, 0x7FFFFFFF)]) (fun t => [t.readGr 1]) =
        some [1] := by decide

/-- K4, K6. -/
theorem test_cmpu :
    sees 0x60740023 (start [(1, 0x99), (2, 0x80000000), (3, 0x7FFFFFFF)]) (fun t => [t.readGr 1]) =
        some [0] ∧
      sees 0x6123FFFF (start [(4, 0xFFFFFFFE)]) (fun t => [t.readGr 4]) =
        some [1] := by decide

/-- The CMR table, last row. -/
theorem test_cmr_eq :
    sees 0x24400032 (start [(1, 0x99), (2, 0x80000000), (3, 0x55)]) (fun t => [t.readGr 1]) =
        some [0x99] := by decide

/-- The CMR table, last row. -/
theorem test_cmr_lt :
    sees 0x24480032 (start [(1, 0x99), (2, 0x80000000), (3, 0x55)]) (fun t => [t.readGr 1]) =
        some [0x55] := by decide

/-- The CMR table, last row. -/
theorem test_cmr_gt :
    sees 0x24500032 (start [(1, 0x99), (2, 0x80000000), (3, 0x55)]) (fun t => [t.readGr 1]) =
        some [0x99] := by decide

/-- The CMR table, last row. -/
theorem test_cmr_ev :
    sees 0x24580032 (start [(1, 0x99), (2, 0x80000000), (3, 0x55)]) (fun t => [t.readGr 1]) =
        some [0x55] := by decide

/-- The CMR table, last row. -/
theorem test_cmr_ne :
    sees 0x24600032 (start [(1, 0x99), (2, 0x80000000), (3, 0x55)]) (fun t => [t.readGr 1]) =
        some [0x55] := by decide

/-- The CMR table, last row. -/
theorem test_cmr_le :
    sees 0x24680032 (start [(1, 0x99), (2, 0x80000000), (3, 0x55)]) (fun t => [t.readGr 1]) =
        some [0x55] := by decide

/-- The CMR table, last row. -/
theorem test_cmr_ge :
    sees 0x24700032 (start [(1, 0x99), (2, 0x80000000), (3, 0x55)]) (fun t => [t.readGr 1]) =
        some [0x99] := by decide

/-- The CMR table, last row. -/
theorem test_cmr_od :
    sees 0x24780032 (start [(1, 0x99), (2, 0x80000000), (3, 0x55)]) (fun t => [t.readGr 1]) =
        some [0x99] := by decide

/-- F3, F8. -/
theorem test_extr :
    sees 0x146003F2 (start [(2, 0x80000001)]) (fun t => [t.readGr 1]) =
        some [0xFFFFFFFF] ∧
      sees 0x14701002 ((start [(2, 0xF80)]).writeCr 2 4) (fun t => [t.readGr 1]) =
        some [0xFFFFFFF8] := by decide

/-- F14, F17: the source is read before the target is cleared. -/
theorem test_dep_reg :
    sees 0x18700802 ((start [(1, 0x77), (2, 0x1F)]).writeCr 2 28) (fun t => [t.readGr 1]) =
        some [0xF0000000] ∧
      sees 0x18E03E13 (start [(3, 0xC0000001)]) (fun t => [t.readGr 3]) =
        some [0x80000002] := by decide

/-- F12, F13. -/
theorem test_dep_imm :
    sees 0x184803FF (start []) (fun t => [t.readGr 1]) =
        some [0x80000000] ∧
      sees 0x18481049 (start [(1, 0xFFFFFFFF)]) (fun t => [t.readGr 1]) =
        some [0xFFFFF09F] := by decide

/-- F20, F21. -/
theorem test_dsr :
    sees 0x1C401F32 (start [(2, 0x11223344), (3, 0xAABBCCDD)]) (fun t => [t.readGr 1]) =
        some [0x22446689] ∧
      sees 0x1C500032 ((start [(2, 0x11223344), (3, 0xAABBCCDD)]).writeCr 2 16) (fun t => [t.readGr 1]) =
        some [0x3344AABB] := by decide

/-- F34. -/
theorem test_lsid :
    sees 0x10400002 ((start [(2, 0x40001234)]).writeSr 5 0x50) (fun t => [t.readGr 1]) =
        some [0x50] := by decide

/-- M4. -/
theorem test_ldb :
    sees 0x68CC0085 (((start [(5, 0x3000)]).poke 0x3000 0x11223344).poke 0x3004 0xAABBCCDD)
        (fun t => [t.readGr 3]) =
        some [0xAA] := by decide

/-- M2. -/
theorem test_ldh :
    sees 0x68CD0045 (((start [(5, 0x3000)]).poke 0x3000 0x11223344).poke 0x3004 0xAABBCCDD)
        (fun t => [t.readGr 3]) =
        some [0x3344] := by decide

/-- M6, M7: modified after and before the access. -/
theorem test_ldw :
    sees 0x68DE0085 (((start [(5, 0x3000)]).poke 0x3000 0x11223344).poke 0x3004 0xAABBCCDD)
        (fun t => [t.readGr 3, t.readGr 5]) =
        some [0x11223344, 0x3004] ∧
      sees 0x68DEFF95 (((start [(5, 0x3008)]).poke 0x3000 0x11223344).poke 0x3004 0xAABBCCDD)
        (fun t => [t.readGr 3, t.readGr 5]) =
        some [0xAABBCCDD, 0x3004] := by decide

/-- M8: the loaded value wins. -/
theorem test_ldw_base_is_target :
    sees 0x695E0085 (((start [(5, 0x3000)]).poke 0x3000 0x11223344).poke 0x3004 0xAABBCCDD)
        (fun t => [t.readGr 5]) =
        some [0x11223344] := by decide

/-- M11. -/
theorem test_ldw_misaligned :
    sees 0x68CE0045 (((start [(5, 0x3000), (3, 0x77)]).poke 0x3000 0x11223344).poke 0x3004 0xAABBCCDD)
        (fun t => [t.readGr 3, t.readCr 17, t.readCr 18, t.readCr 19, t.readCr 20, t.readCr 21, t.readCr 22, t.st, t.iaOfs]) =
        some [0x77, 0, 0, 0x1000, 0x68CE0045, 0, 0x3002, 0, 0x220] := by decide

/-- M17. -/
theorem test_stb :
    sees 0x6C8C0025 (start [(5, 0x3000), (2, 0xCAFEBABE)]) (fun t => [t.peek 0x3000]) =
        some [0x00BE0000] := by decide

/-- M16. -/
theorem test_sth :
    sees 0x6C8D0045 (start [(5, 0x3000), (2, 0xCAFEBABE)]) (fun t => [t.peek 0x3000]) =
        some [0x0000BABE] := by decide

/-- M18, M19: the old value is stored. -/
theorem test_stw :
    sees 0x6C9EFF95 (start [(5, 0x3008), (2, 0xCAFEBABE)]) (fun t => [t.peek 0x3004, t.readGr 5]) =
        some [0xCAFEBABE, 0x3004] ∧
      sees 0x6D5E0085 (start [(5, 0x3000)]) (fun t => [t.peek 0x3000, t.readGr 5]) =
        some [0x3000, 0x3004] := by decide

/-- M25. -/
theorem test_ldwa :
    sees 0xC8DFFF15 (((start [(5, 0x3008)]).poke 0x3000 0x11223344).poke 0x3004 0xAABBCCDD)
        (fun t => [t.readGr 3, t.readGr 5]) =
        some [0x11223344, 0x3000] := by decide

/-- M23. -/
theorem test_ldwa_user :
    sees 0xC8C00085 ((((start [(5, 0x3000)]).poke 0x3000 0x11223344).poke 0x3004 0xAABBCCDD).status 0x40000000)
        (fun t => [t.readCr 17, t.readCr 20, t.iaOfs]) =
        some [0x40000000, 0xC8C00085, 0xC0] := by decide

/-- M24. -/
theorem test_ldwax :
    sees 0xC8E00045 (((start [(5, 0x3000), (4, 4)]).poke 0x3000 0x11223344).poke 0x3004 0xAABBCCDD)
        (fun t => [t.readGr 3]) =
        some [0xAABBCCDD] := by decide

/-- M26. -/
theorem test_stwa :
    sees 0xCC800005 (start [(2, 0x12345678), (5, 0x3004)]) (fun t => [t.peek 0x3004]) =
        some [0x12345678] := by decide

/-- M29, M30. -/
theorem test_ldew :
    sees 0xC04A0004 ((start [(4, 0x3000)]).poke 0x3000 0x11223344) (fun t => [t.readCr 20, t.iaOfs]) =
        some [0xC04A0004, 0xA0] ∧
      sees 0xC04A0004 (((start [(4, 0x3000)]).poke 0x3000 0x11223344).status 4) (fun t => [t.readGr 1]) =
        some [0x11223344] := by decide

/-- M31. -/
theorem test_ldexh :
    sees 0xC0650034 (((start [(3, 6), (4, 0x3000)]).poke 0x3004 0xAABBCCDD).status 4) (fun t => [t.readGr 1]) =
        some [0xCCDD] := by decide

/-- M32. -/
theorem test_steb :
    sees 0xC64C00A4 ((start [(9, 0x1FF), (4, 0x3000)]).status 4) (fun t => [t.peek 0x3004]) =
        some [0x00FF0000] := by decide

/-- M34. -/
theorem test_ldwr :
    sees 0x70CE0005 (((start [(5, 0x3000)]).poke 0x3000 0x11223344).poke 0x3004 0xAABBCCDD)
        (fun t => [t.readGr 3, t.lrAddr, if t.lrValid then 1 else 0]) =
        some [0x11223344, 0x3000, 1] := by decide

/-- M35, M37. -/
theorem test_stwc :
    sees 0x748E0005 ({ start [(5, 0x3000), (2, 0x55)] with lrValid := true, lrAddr := 0x3000 })
        (fun t => [t.peek 0x3000, t.readGr 2, if t.lrValid then 1 else 0]) =
        some [0x55, 0, 0] ∧
      sees 0x748E0085 ({ start [(5, 0x3000), (2, 0x55)] with lrValid := true, lrAddr := 0x3000 })
        (fun t => [t.peek 0x3004, t.readGr 2, if t.lrValid then 1 else 0]) =
        some [0, 1, 0] := by decide

/-- D1, D5. -/
theorem test_translated_load :
    sees 0x69CE0005 ({ (((start [(5, 0x40002000), (7, 0x99)]).writeSr 5 0x21).poke 0x6000 0x2A).status 4 with
          dtlb := [page 0x21 0x40002 7 6] })
        (fun t => [t.readGr 7]) =
        some [0x2A] ∧
      sees 0x69CE0005 ({ (((start [(5, 0x40002000), (7, 0x99)]).writeSr 5 0x21).poke 0x6000 0x2A).status 0x40000004 with
          dtlb := [page 0x21 0x40002 5 6] })
        (fun t => [t.readGr 7, t.readCr 17, t.readCr 18, t.readCr 19, t.readCr 20, t.readCr 21, t.readCr 22, t.st, t.iaOfs]) =
        some [0x99, 0x40000004, 0, 0x1000, 0x69CE0005, 0x21, 0x40002000, 0, 0x1C0] := by decide

/-- D8, D9. -/
theorem test_translated_store :
    sees 0x6DCE0085 ({ (((start [(5, 0x40002000), (7, 0x99)]).writeSr 5 0x21).poke 0x6000 0x2A).status 0x40000004 with
          dtlb := [page 0x21 0x40002 7 6] })
        (fun t => [t.peek 0x6004]) =
        some [0x99] ∧
      sees 0x6DCE0085 ({ (((start [(5, 0x40002000), (7, 0x99)]).writeSr 5 0x21).poke 0x6000 0x2A).status 0x40000004 with
          dtlb := [page 0x21 0x40002 6 6] })
        (fun t => [t.peek 0x6004, t.readCr 22, t.iaOfs]) =
        some [0, 0x40002004, 0x1C0] := by decide

/-- D12, D13: W stops the write only. -/
theorem test_protection_id :
    sees 0x69CE0005 (({ (((start [(5, 0x40002000), (7, 0x99)]).writeSr 5 0x21).poke 0x6000 0x2A).status 6 with
          dtlb := [{ page 0x21 0x40002 7 6 with pid := 0x42 }] }).writeCr 9 0x85)
        (fun t => [t.readGr 7]) =
        some [0x2A] ∧
      sees 0x6DCE0085 (({ (((start [(5, 0x40002000), (7, 0x99)]).writeSr 5 0x21).poke 0x6000 0x2A).status 6 with
          dtlb := [{ page 0x21 0x40002 7 6 with pid := 0x42 }] }).writeCr 9 0x85)
        (fun t => [t.readCr 20, t.iaOfs]) =
        some [0x6DCE0085, 0x1E0] := by decide

/-- D17, D18. -/
theorem test_page_bits :
    sees 0x69CE0005 ({ (((start [(5, 0x40002000), (7, 0x99)]).writeSr 5 0x21).poke 0x6000 0x2A).status 4 with
          dtlb := [{ page 0x21 0x40002 7 6 with d := true }] })
        (fun t => [t.readGr 7]) =
        some [0x2A] ∧
      sees 0x6DCE0085 ({ (((start [(5, 0x40002000), (7, 0x99)]).writeSr 5 0x21).poke 0x6000 0x2A).status 4 with
          dtlb := [{ page 0x21 0x40002 7 6 with d := true }] })
        (fun t => [t.readCr 20, t.iaOfs]) =
        some [0x6DCE0085, 0x200] := by decide

/-- B1, B6. -/
theorem test_branch :
    sees 0x83800020 (start []) (fun t => [t.readGr 14, t.iaOfs]) =
        some [0x1004, 0x1040] ∧
      sees 0x80FFFFFF ({ start [] with iaOfs := 0 }) (fun t => [t.readGr 3, t.iaOfs]) =
        some [4, 0xFFFFFFFC] := by decide

/-- B8: the old GR5. -/
theorem test_br :
    sees 0x89400005 (start [(5, 4)]) (fun t => [t.readGr 5, t.iaOfs]) =
        some [0x1004, 0x1010] := by decide

/-- B11. -/
theorem test_bv :
    sees 0x8C000076 (start [(6, 0x3002), (7, 3)]) (fun t => [t.iaOfs]) =
        some [0x300C] := by decide

/-- B16, B17. -/
theorem test_be :
    sees 0x90000023 ((start [(3, 0x4000)]).writeSr 2 0x55) (fun t => [t.iaSeg, t.iaOfs]) =
        some [0, 0x4000] ∧
      sees 0x90000023 ({ ((start [(3, 0x4000)]).writeSr 2 0x55).status 0x20000000 with
          iaSeg := 0x11, iaOfs := 0x2000, itlb := [page 0x11 2 0xA 2] })
        (fun t => [t.iaSeg, t.iaOfs]) =
        some [0x55, 0x4000] := by decide

/-- B20: the old SR0 and GR1. -/
theorem test_ble :
    sees 0x94000801 ({ ((start [(1, 0x500)]).writeSr 0 0x33).status 0x20000000 with
          iaSeg := 0x11, iaOfs := 0x2000, itlb := [page 0x11 2 0xA 2] })
        (fun t => [t.iaSeg, t.iaOfs, t.readSr 0, t.readGr 1]) =
        some [0x33, 0x510, 0x11, 0x2004] := by decide

/-- B23: the segment is that of GR8. -/
theorem test_bve :
    sees 0x98000028 ({ (((start [(8, 0x3FFFFFFC), (2, 1)]).writeSr 4 4).writeSr 5 5).status 0x20000000 with
          iaSeg := 0x11, iaOfs := 0x2000, itlb := [page 0x11 2 0xA 2] })
        (fun t => [t.iaSeg, t.iaOfs]) =
        some [4, 0x40000000] := by decide

/-- B25, B26. -/
theorem test_gate :
    sees 0x84800006 ({ (start []).status 0x60000000 with
          iaSeg := 0x20, iaOfs := 0x5000, itlb := [page 0x20 5 0xE 1] })
        (fun t => [t.readGr 2, t.st, t.iaOfs]) =
        some [1, 0x20000000, 0x500C] ∧
      sees 0x84800006 ({ (start []).status 0x60000000 with
          iaSeg := 0x20, iaOfs := 0x5000, itlb := [page 0x20 5 0xA 1] })
        (fun t => [t.readGr 2, t.st, t.iaOfs]) =
        some [1, 0x60000000, 0x500C] := by decide

/-- The CBR table, third row. -/
theorem test_cbr_eq :
    sees 0x9C001023 (start [(2, 1), (3, 0xFFFFFFFF)]) (fun t => [t.iaOfs]) =
        some [0x1004] := by decide

/-- The CBR table, third row. -/
theorem test_cbr_lt :
    sees 0x9C801023 (start [(2, 1), (3, 0xFFFFFFFF)]) (fun t => [t.iaOfs]) =
        some [0x1004] := by decide

/-- The CBR table, third row. -/
theorem test_cbr_gt :
    sees 0x9D001023 (start [(2, 1), (3, 0xFFFFFFFF)]) (fun t => [t.iaOfs]) =
        some [0x1020] := by decide

/-- The CBR table, third row. -/
theorem test_cbr_ls :
    sees 0x9D801023 (start [(2, 1), (3, 0xFFFFFFFF)]) (fun t => [t.iaOfs]) =
        some [0x1020] := by decide

/-- The CBR table, third row. -/
theorem test_cbr_ne :
    sees 0x9E001023 (start [(2, 1), (3, 0xFFFFFFFF)]) (fun t => [t.iaOfs]) =
        some [0x1020] := by decide

/-- The CBR table, third row. -/
theorem test_cbr_le :
    sees 0x9E801023 (start [(2, 1), (3, 0xFFFFFFFF)]) (fun t => [t.iaOfs]) =
        some [0x1004] := by decide

/-- The CBR table, third row. -/
theorem test_cbr_ge :
    sees 0x9F001023 (start [(2, 1), (3, 0xFFFFFFFF)]) (fun t => [t.iaOfs]) =
        some [0x1020] := by decide

/-- The CBR table, third row. -/
theorem test_cbr_hi :
    sees 0x9F801023 (start [(2, 1), (3, 0xFFFFFFFF)]) (fun t => [t.iaOfs]) =
        some [0x1004] := by decide

/-- S1, S5. -/
theorem test_mr_from :
    sees 0x28C00005 (((start []).writeSr 5 0x1234).status 0x40000000) (fun t => [t.readGr 3]) =
        some [0x1234] ∧
      sees 0x28D00011 (((start []).writeCr 17 0xABCD0000).status 0x40000000) (fun t => [t.readGr 3]) =
        some [0xABCD0000] := by decide

/-- S2, S3. -/
theorem test_mr_to_sr :
    sees 0x28E00004 ((start [(3, 0x77)]).status 0x40000000) (fun t => [t.readSr 4]) =
        some [0x77] ∧
      sees 0x28E00005 ((start [(3, 0x77)]).status 0x40000000) (fun t => [t.readSr 5, t.readCr 20, t.iaOfs]) =
        some [0, 0x28E00005, 0xC0] := by decide

/-- S6, S8. -/
theorem test_mr_to_cr :
    sees 0x29F00002 ((start [(7, 0xFFFFFFF5)]).status 0x40000000) (fun t => [t.readCr 2]) =
        some [0x15] ∧
      sees 0x28300018 ((start []).writeCr 24 0x55) (fun t => [t.readCr 24]) =
        some [0] := by decide

/-- S12, S13. -/
theorem test_mst :
    sees 0x2C400004 ((start [(4, 0xFFFFFFC2)]).status 0x20080007) (fun t => [t.readGr 1, t.st]) =
        some [7, 0x20080002] ∧
      sees 0x2D000004 ((start [(4, 6)]).status 1) (fun t => [t.readGr 4, t.st]) =
        some [1, 6] := by decide

/-- S10, S14. -/
theorem test_mst_set :
    sees 0x2C500004 ((start []).status 1) (fun t => [t.readGr 1, t.st]) =
        some [1, 5] ∧
      sees 0x2C50003F (start []) (fun t => [t.readGr 1, t.st]) =
        some [0, 0x3F] := by decide

/-- S11. -/
theorem test_mst_clear :
    sees 0x2CA00001 ((start []).status 5) (fun t => [t.readGr 2, t.st]) =
        some [5, 4] := by decide

/-- S15, S16. -/
theorem test_mst_mode_3 :
    sees 0x2C700000 (start []) (fun t => [t.iaOfs]) =
        some [0xA0] ∧
      sees 0x2C700000 ((start []).status 0x40000000) (fun t => [t.iaOfs]) =
        some [0xC0] := by decide

/-- S18, S19. -/
theorem test_ldpa :
    sees 0xE44C0005 ({ (start [(5, 0x40001ABC)]).writeSr 5 0x11 with dtlb := [page 0x11 0x40001 0 0x123] })
        (fun t => [t.readGr 1]) =
        some [0x00123ABC] ∧
      sees 0xE4480025 ({ (start [(5, 0x40001ABC), (2, 0x10)]).writeSr 5 0x11 with
          dtlb := [page 0x11 0x40001 0 0x123] })
        (fun t => [t.readGr 1]) =
        some [0x00123ACC] := by decide

/-- S26, S29. -/
theorem test_prb :
    sees 0xE8700005 ({ (start [(5, 0x40001000), (1, 0x99)]).writeSr 5 0x11 with
          dtlb := [page 0x11 0x40001 6 0x123] })
        (fun t => [t.readGr 1]) =
        some [0] ∧
      sees 0xE8480045 ({ (start [(5, 0x40001000), (1, 0x99), (4, 2)]).writeSr 5 0x11 with
          dtlb := [page 0x11 0x40001 6 0x123] })
        (fun t => [t.readGr 1]) =
        some [0] := by decide

/-- S36. -/
theorem test_prb_miss :
    sees 0xE8400005 (((start [(5, 0x40001000), (1, 0x99)]).writeSr 5 0x11).status 0x40000000)
        (fun t => [t.readGr 1, t.iaOfs]) =
        some [0x99, 0x1A0] := by decide

/-- T1. -/
theorem test_itlbA :
    (match step (((start [(5, 0x40001234), (4, 0x00123FFF), (6, 0x78070085)]).writeSr 1 0x11).withFetchWord
        32 0xED200015) with
      | .next t => t.dtlb
      | _ => [freshEntry 0 0]) = [{ freshEntry 0x11 0x40001 with ppn := 0x123 }] := by decide

/-- T4: the entry keeps all but its page and V. -/
theorem test_itlbA_keeps :
    (match step (({ (start [(5, 0x40001234), (4, 0x00123FFF), (6, 0x78070085)]).writeSr 1 0x11 with dtlb := [{ page 0x11 0x40001 6 0x999 with pid := 9, d := true }] }).withFetchWord
        32 0xED200015) with
      | .next t => t.dtlb
      | _ => [freshEntry 0 0]) = [{ page 0x11 0x40001 6 0x123 with v := false, pid := 9, d := true }] := by decide

/-- T2. -/
theorem test_itlbP :
    (match step (({ (start [(5, 0x40001234), (4, 0x00123FFF), (6, 0x78070085)]).writeSr 1 0x11 with dtlb := [{ freshEntry 0x11 0x40001 with ppn := 0x123 }] }).withFetchWord
        32 0xEDB00015) with
      | .next t => t.dtlb
      | _ => [freshEntry 0 0]) = [{ page 0x11 0x40001 7 0x123 with t := true, d := true, b := true, x := true, pid := 0x42 }] := by decide

/-- T6. -/
theorem test_ptlb :
    (match step (({ (start [(5, 0x40001234), (4, 0x00123FFF), (6, 0x78070085)]).writeSr 1 0x11 with dtlb := [page 0x11 0x40001 7 0x123] }).withFetchWord
        32 0xF0200015) with
      | .next t => t.dtlb
      | _ => [freshEntry 0 0]) = [] := by decide

/-- T9, T11. -/
theorem test_pca :
    sees 0xF4200015 ({ (start [(5, 0x40001234), (4, 0x00123FFF), (6, 0x78070085)]).writeSr 1 0x11 with
          dtlb := [page 0x11 0x40001 7 0x123] })
        (fun t => [t.iaOfs]) =
        some [0x1004] ∧
      sees 0xF4000015 ((start [(5, 0x40001234), (4, 0x00123FFF), (6, 0x78070085)]).writeSr 1 0x11)
        (fun t => [t.iaOfs]) =
        some [0x140] := by decide

/-- T14. -/
theorem test_diag :
    sees 0xF8400023 (start [(1, 0x99), (2, 5), (3, 6)]) (fun t => [t.readGr 1]) =
        some [0] := by decide

/-- T16. -/
theorem test_rfi :
    sees 0xFC000000 ((((start []).writeCr 17 0x60000005).writeCr 18 0x20).writeCr 19 0x00001003)
        (fun t => [t.st, t.iaSeg, t.iaOfs]) =
        some [0x60000005, 0x20, 0x1000] := by decide

/-- T19, T20. -/
theorem test_brk :
    sees 0x00400002 (((((start []).writeCr 16 0x4000).writeCr 21 0x77).writeCr 22 0x88).status 0x40080001)
        (fun t => [t.readCr 17, t.readCr 18, t.readCr 19, t.readCr 20, t.readCr 21, t.readCr 22, t.st, t.iaOfs]) =
        some [0x40080001, 0, 0x1000, 0x00400002, 0, 0, 0, 0x4240] ∧
      sees 0x00000000 ((start []).status 0x40000000) (fun t => [t.st, t.iaOfs]) =
        some [0x40000000, 0x1004] := by decide

/-- X1: the external interrupt, before the instruction. -/
theorem test_external_interrupt :
    (match step ({ (((start []).writeCr 23 0x10).writeCr 16 0x4000).status 1 with extPending := 0x10 }) with
      | .next t => [t.readCr 17, t.readCr 19, t.st, t.iaOfs]
      | _ => []) = [1, 0x1000, 0, 0x4080] := by decide

/-- X4, X7, X8: a fetch without an entry; a fetch that lowers the privilege, which is what the trap then saves. -/
theorem test_fetch :
    (match step ({ ((start []).writeCr 16 0x4000).status 0x20000000 with iaSeg := 0x20, iaOfs := 0x5000 }) with
      | .next t => [t.readCr 17, t.readCr 18, t.readCr 19, t.iaOfs]
      | _ => []) = [0x20000000, 0x20, 0x5000, 0x4120] ∧
      sees 0x40400002 ({ (start []).status 0x20000000 with
          iaSeg := 0x20, iaOfs := 0x5000, itlb := [page 0x20 5 0xB 1] }) (fun t => [t.readGr 1, t.st, t.iaOfs]) =
        some [1, 0x60000000, 0x5004] ∧
      sees 0x28B00010 ({ (start []).status 0x20000000 with
          iaSeg := 0x20, iaOfs := 0x5000, itlb := [page 0x20 5 0xB 1] }) (fun t => [t.readCr 17, t.iaOfs]) =
        some [0x60000000, 0xC0] := by decide

/-- Every opcode the table does not assign, here 0x0C and 0x38 (section 3.16). -/
theorem test_illegal :
    sees 0x30000123 (((start []).writeCr 16 0x4000).status 0x40000000) (fun t => [t.readCr 20, t.iaOfs]) =
        some [0x30000123, 0x40A0] ∧
      sees 0xE0000123 (((start []).writeCr 16 0x4000).status 0x40000000) (fun t => [t.readCr 20, t.iaOfs]) =
        some [0xE0000123, 0x40A0] := by decide

/-- The model's choices of logs 26 and 27: LDEXB with a reserved bit takes trap 5 while ST.D = 0 and is refused with it
set; DEP.Z of an empty field leaves the target. -/
theorem test_choices :
    sees 0xC0600100 (((start []).writeCr 16 0x4000).status 0) (fun t => [t.readCr 20, t.iaOfs]) =
        some [0xC0600100, 0x40A0] ∧
      (step (((start []).status 4).withFetchWord 32 0xC0600100) = .refused (.reservedField 0xC0600100)) ∧
      sees 0x19A00005 (start [(6, 0x99), (5, 0x77)]) (fun t => [t.readGr 6]) = some [0x99] :=
  ⟨by decide, rfl, by decide⟩

/-- The split caches (20_memory.md R92): a store to 0x2000, a flush, a store to 0x2004 of the same line, a purge of the
instruction line. What a fetch can still draw as old is the first store's word, and the word before the second. -/
theorem test_stale :
    let a := ((start []).poke 0x2000 0x11).poke 0x2004 0x22
    let b := ((a.markStale 0x200).poke 0x2000 0x33).flushStale 0x200
    let c := ((b.markStale 0x200).poke 0x2004 0x44).purgeStale 0x200
    c.icache.map (fun e => (lineWord e.old 0, lineWord e.old 4)) = [(0x33, 0x22)] ∧
      ((c.flushStale 0x200).purgeStale 0x200).icache = [] := by decide

/-- After reset there is nothing to fetch until the platform places code in the PDC region; a read of a place without
code stops (60_exceptions.md R301). -/
theorem test_pdc :
    (step State.reset = .fault (.unmapped 0xF0000000)) ∧
      (State.reset.withFetchWord 32 0x28E00002).pdcWords = [0x3C000000] ∧
      (step (State.reset.withFetchWord 32 0x28E00002) =
        .next (State.reset.withFetchWord 32 0x28E00002).advance) ∧
      (exec (.ldwa 1 false 0 5) (start [(5, 0xF0000004)]) = .fault (.unmapped 0xF0000004)) :=
  ⟨rfl, by decide, rfl, rfl⟩

/-! Witnesses: a state and operands that meet the hypotheses of each statement that has any, at the boundaries where
the statement has several clauses. -/

/-- The step gives a next state. -/
def completes (s : State) : Bool :=
  match step s with
  | .next _ => true
  | _ => false

/-- Data translation on, GR5 = 0x40002000 in segment 0x21 through SR5, and one DTLB entry. -/
def mapped (st : Word) (e : TlbEntry) : State :=
  { (((start [(5, 0x40002000)]).writeSr 5 0x21).status st) with dtlb := [e] }

/-- Code translation on, at 0x20.0x5000, and some ITLB entries. -/
def fetching (st : Word) (l : List TlbEntry) : State :=
  { (start []).status st with iaSeg := 0x20, iaOfs := 0x5000, itlb := l }

theorem witness_StepKeepsSound : (start []).Sound ∧ step (start []) = .next (start []).advance := by
  refine ⟨?_, by rfl⟩
  constructor <;> decide

theorem witness_DecodeEncode : (Instr.be 0x3FFFF 7 15).wf = true := by decide

theorem witness_EncodeDecode : decodeWord 0x404003E8 = .ok (.addImm 1 false false 0x3E8) := by decide

/-- Untranslated, and translated in segment zero. -/
theorem witness_StepRunsInstruction :
    Fetches ((start []).poke 0x1000 0x06848D15) 0x06848D15 ((start []).poke 0x1000 0x06848D15) ∧
      decodeWord 0x06848D15 = .ok (.ldil 10 0x48D15) ∧
      ((start []).poke 0x1000 0x06848D15).cBit = false ∧
      (((start []).poke 0x1000 0x06848D15).status 0x20000000).iaSeg = 0 ∧
      Readable ((start []).poke 0x1000 0x06848D15) 0x1000 ∧
      decode [((start []).poke 0x1000 0x06848D15).mem.readByte 0x1000, ((start []).poke 0x1000 0x06848D15).mem.readByte 0x1001,
        ((start []).poke 0x1000 0x06848D15).mem.readByte 0x1002, ((start []).poke 0x1000 0x06848D15).mem.readByte 0x1003] =
        .ok (.ldil 10 0x48D15, []) := by
  refine ⟨⟨by decide, by rfl⟩, by decide, by decide, by decide, by unfold Readable; decide, by decide⟩

/-- An execute page with PL1 = PL2 = 1 at both levels, and the protection id check on with a match. -/
theorem witness_TranslatedFetch :
    (fetching 0x20000000 [page 0x20 5 0xB 1]).interruptTaken = false ∧
      (fetching 0x20000000 [page 0x20 5 0xB 1]).cBit = true ∧ (fetching 0x20000000 [page 0x20 5 0xB 1]).iaSeg ≠ 0 ∧
      (fetching 0x20000000 [page 0x20 5 0xB 1]).tlbLookup .instr 0x20 0x5000 = some (page 0x20 5 0xB 1) ∧
      2 ≤ pageType 0xB ∧ (fetching 0x20000000 []).level ≤ arPl1 0xB ∧ (fetching 0x60000000 []).level ≤ arPl1 0xB ∧
      ((fetching 0x20000002 []).writeCr 9 0x85).pBit = true ∧
      ((fetching 0x20000002 []).writeCr 9 0x85).pidAllowed .read 0x42 = true ∧
      Readable (fetching 0x20000000 []) (pageAddr 1 0x5000) := by
  refine ⟨by decide, by decide, by decide, by decide, by decide, by decide, by decide, by decide, by decide, ?_⟩
  unfold Readable
  decide

/-- No entry; a page that is not executable; a page for privileged code at user level; no matching protection id. -/
theorem witness_FetchTraps :
    (fetching 0x20000000 []).interruptTaken = false ∧ (fetching 0x20000000 []).cBit = true ∧
      (fetching 0x20000000 []).iaSeg ≠ 0 ∧ (fetching 0x20000000 []).tlbLookup .instr 0x20 0x5000 = none ∧
      (fetching 0x20000000 [page 0x20 5 0x7 1]).tlbLookup .instr 0x20 0x5000 = some (page 0x20 5 0x7 1) ∧
      pageType 0x7 < 2 ∧ arPl1 0x8 < (fetching 0x60000000 []).level ∧
      (fetching 0x20000002 []).pBit = true ∧ (fetching 0x20000002 []).pidAllowed .read 0x42 = false := by decide

theorem witness_ExternalInterrupt :
    stBit ({ ((start []).writeCr 23 0x10).status 1 with extPending := 0x10 } : State).st 31 = true ∧
      ({ ((start []).writeCr 23 0x10).status 1 with extPending := 0x10 } : State).extPending &&&
        ({ ((start []).writeCr 23 0x10).status 1 with extPending := 0x10 } : State).readCr 23 ≠ 0 := by decide

/-- Any word can be the one fetched. -/
theorem fetches_poke (w : Word) : Fetches ((start []).poke 0x1000 w) w ((start []).poke 0x1000 w) := by
  have hf : ((start []).poke 0x1000 w).fetch =
      .ok (((start []).poke 0x1000 w).mem.read 0x1000 .word, (start []).poke 0x1000 w) := by
    have hc : ((start []).poke 0x1000 w).cBit = false := by
      show stBit 0#32 stC = false
      decide
    have hr : Readable ((start []).poke 0x1000 w) ((start []).poke 0x1000 w).iaOfs := .inl (by show 0x1000 < 0xF0000000; decide)
    unfold State.fetch State.fetchAddr
    simp only [hc, if_true, physRead_ok .word hr, fetchWord_eq]
    rfl
  refine ⟨?_, ?_⟩
  · have he : ((start []).poke 0x1000 w).eBit = false := by
      show stBit 0#32 stE = false
      decide
    simp [State.interruptTaken, he]
  · rw [hf]
    exact congrArg (fun v => Except.ok (v, (start []).poke 0x1000 w)) (Memory.read_write_word _ _ _)

/-- An unassigned opcode, each undefined form, and MST mode 3. -/
theorem witness_IllegalWords :
    Fetches ((start []).poke 0x1000 0x30000123) 0x30000123 ((start []).poke 0x1000 0x30000123) ∧
      fld 0x30000123 0 6 = 0x0C#6 ∧ fld 0xE0000123 0 6 = 0x38#6 ∧
      (fld 0x68C00010 0 6 = 0x1A#6 ∧ fld 0x68C00010 12 2 = 0#2) ∧
      (fld 0x6CCF0005 0 6 = 0x1B#6 ∧ fld 0x6CCF0005 14 2 = 3#2) ∧
      (fld 0x6C8A0045 0 6 = 0x1B#6 ∧ fld 0x6C8A0045 12 2 = 2#2) ∧
      (fld 0x70C40015 0 6 = 0x1C#6 ∧ fld 0x70C40015 12 2 = 1#2) ∧
      (fld 0x748D0005 0 6 = 0x1D#6 ∧ fld 0x748D0005 14 2 ≠ 2#2) ∧
      (fld 0xC0470004 0 6 = 0x30#6 ∧ fld 0xC0470004 14 2 = 3#2) ∧
      (fld 0xC66C0024 0 6 = 0x31#6 ∧ bit 0xC66C0024 10 = true) ∧
      (fld 0xCCA00045 0 6 = 0x33#6 ∧ bit 0xCCA00045 10 = true) ∧
      (fld 0x0D040023 0 6 = 0x03#6 ∧ fld 0x0D040023 12 2 = 1#2) ∧
      (fld 0xE4400000 0 6 = 0x39#6 ∧ fld 0xE4400000 12 2 = 0#2) ∧
      (fld 0x2C700000 0 6 = 0x0B#6 ∧ fld 0x2C700000 10 2 = 3#2) := ⟨fetches_poke _, by decide⟩

/-- BR, BRK, RFI and BE with a reserved bit, and LDEXB with one and data translation on. -/
theorem witness_ReservedFieldRefused :
    Fetches ((start []).poke 0x1000 0x88800015) 0x88800015 ((start []).poke 0x1000 0x88800015) ∧
      (fld 0x88800015 0 6 = 0x22#6 ∧ fld 0x88800015 10 18 ≠ 0#18) ∧
      (fld 0x00010000 0 6 = 0x00#6 ∧ fld 0x00010000 10 6 ≠ 0#6) ∧
      (fld 0xFC000001 0 6 = 0x3F#6 ∧ fld 0xFC000001 6 26 ≠ 0#26) ∧
      (fld 0x90000083 0 6 = 0x24#6 ∧ bit 0x90000083 24 = true) ∧
      (fld 0xC0600100 0 6 = 0x30#6 ∧ bit 0xC0600100 10 = true ∧ fld 0xC0600100 14 2 ≠ 3#2 ∧ fld 0xC0600100 16 8 ≠ 0#8 ∧
        ((start []).status 4).dBit = true) := ⟨fetches_poke _, by decide⟩

/-- A word at physical address 0x3000 read untranslated, and at 0x21.0x40002000 through an entry. -/
theorem readGives_untranslated :
    ReadGives ((start [(5, 0x3000)]).poke 0x3000 0x11223344)
      (((start [(5, 0x3000)]).poke 0x3000 0x11223344).logicalSeg 0x3000) 0x3000 .word 0x11223344 :=
  ⟨0x3000, ⟨by decide, .inl ⟨by decide, rfl⟩⟩, by unfold Readable; decide, by unfold BytesAre; decide⟩

theorem readGives_translated :
    ReadGives ((mapped 0x40000004 (page 0x21 0x40002 7 6)).poke 0x6000 0x2A)
      (((mapped 0x40000004 (page 0x21 0x40002 7 6)).poke 0x6000 0x2A).logicalSeg 0x40002000) 0x40002000 .word 0x2A :=
  ⟨0x6000, ⟨by decide, .inr ⟨by decide, by decide, page 0x21 0x40002 7 6, by decide, by decide, by decide, by decide,
    by decide, by decide, by decide⟩⟩, by unfold Readable; decide, by unfold BytesAre; decide⟩

/-- The last byte of placed PDC code, and a half-word: both zero-extended. -/
theorem readGives_pdc :
    ReadGives { (start []).poke 0xF0000000 0x112233C4 with pdcWords := [0x3C000000] }
      (({ (start []).poke 0xF0000000 0x112233C4 with pdcWords := [0x3C000000] } : State).logicalSeg 0xF0000003)
      0xF0000003 .byte 0xC4 ∧
    ReadGives { (start []).poke 0xF0000000 0x112233C4 with pdcWords := [0x3C000000] }
      (({ (start []).poke 0xF0000000 0x112233C4 with pdcWords := [0x3C000000] } : State).logicalSeg 0xF0000002)
      0xF0000002 .half 0x33C4 :=
  ⟨⟨0xF0000003, ⟨by decide, .inl ⟨by decide, rfl⟩⟩, by unfold Readable; decide, by unfold BytesAre; decide⟩,
    ⟨0xF0000002, ⟨by decide, .inl ⟨by decide, rfl⟩⟩, by unfold Readable; decide, by unfold BytesAre; decide⟩⟩

/-- The four operand forms. -/
theorem operands_imm : OperandsAre (start [(1, 0x7FFFFFFF)]) 1 (.imm 2) 0x7FFFFFFF 1 := ⟨by decide, by decide⟩

theorem operands_reg : OperandsAre (start [(2, 0xFFFFFFFF), (3, 1)]) 1 (.reg 2 3) 0xFFFFFFFF 1 :=
  ⟨by decide, by decide⟩

theorem operands_idx :
    OperandsAre ((start [(5, 0x3000)]).poke 0x3000 0x11223344) 1 (.idx 2 4 5) 0 0x11223344 :=
  ⟨by decide, .word, rfl, readGives_untranslated⟩

theorem operands_ofs :
    OperandsAre ((mapped 0x40000004 (page 0x21 0x40002 7 6)).poke 0x6000 0x2A) 1 (.ofs 2 0 5) 0 0x2A :=
  ⟨by decide, .word, rfl, readGives_translated⟩

/-- With `operands_imm`: no overflow without O, or unsigned. -/
theorem witness_ArithResult :
    OperandsAre (start [(1, 0x7FFFFFFF)]) 1 (.imm 2) 0x7FFFFFFF 1 ∧
      ¬ (false = true ∧ Overflows .add false 0x7FFFFFFF 1 false) ∧
      ¬ (true = true ∧ Overflows .add true 0x7FFFFFFF 1 false) := by
  refine ⟨operands_imm, by simp, ?_⟩
  simp [Overflows, FitsUnsigned, exactUnsigned]

/-- Signed and unsigned overflow, at the boundary. -/
theorem witness_ArithOverflowTrap :
    (OperandsAre (start [(1, 0x7FFFFFFF)]) 1 (.imm 2) 0x7FFFFFFF 1 ∧ Overflows .add false 0x7FFFFFFF 1 false) ∧
      OperandsAre (start [(2, 0xFFFFFFFF), (3, 1)]) 1 (.reg 2 3) 0xFFFFFFFF 1 ∧
      Overflows .add true 0xFFFFFFFF 1 false := by
  refine ⟨⟨operands_imm, ?_⟩, operands_reg, ?_⟩
  · simp [Overflows, FitsSigned, exactSigned]
  · simp [Overflows, FitsUnsigned, exactUnsigned]

/-- F31: p = 0xFFFFFFFE and q = 1 fit unsigned; F29: p = 2^31 does not fit signed. -/
theorem witness_ShlaResult :
    ((0xFFFFFFFE : Int) = ((start [(2, 0x7FFFFFFF), (3, 1)]).readGr 2).toNat * 2 ^ (1 : BitVec 2).toNat ∧
        (1 : Int) = ((start [(2, 0x7FFFFFFF), (3, 1)]).readGr 3).toNat ∧ FitsUnsigned 0xFFFFFFFE ∧
        FitsUnsigned (0xFFFFFFFE + 1)) ∧
      (2 ^ 31 : Int) = ((start [(2, 0x40000000)]).readGr 2).toInt * 2 ^ (1 : BitVec 2).toNat ∧
      ¬ FitsSigned (2 ^ 31) := by
  unfold FitsUnsigned FitsSigned
  decide

theorem witness_LogicResult :
    OperandsAre ((start [(5, 0x3000)]).poke 0x3000 0x11223344) 1 (.idx 2 4 5) 0 0x11223344 := operands_idx

/-- The operands of a comparison that holds signed and fails unsigned. -/
theorem witness_CompareResult :
    OperandsAre (start [(2, 0xFFFFFFFF), (3, 1)]) 1 (.reg 2 3) 0xFFFFFFFF 1 ∧
      Compares true 2 0xFFFFFFFF 1 ∧ ¬ Compares false 2 0xFFFFFFFF 1 := by
  refine ⟨operands_reg, ?_, ?_⟩ <;> unfold Compares <;> decide

/-- dw = 3; a misaligned word; the rest is met by the states of `witness_DataTraps`, where GR5 + 0 is the operand's
address. -/
theorem witness_OperandTraps :
    MemOperandInstr (.addOfs 1 false false 3 0 5) 3 (fun s => s.readGr 5 + lse (0 : BitVec 12)) ∧
      MemOperandInstr (.addOfs 1 false false 2 0 5) 2 (fun s => s.readGr 5 + lse (0 : BitVec 12)) ∧
      widthOf 2 = some .word ∧ ((start [(5, 0x3001)]).readGr 5 + lse (0 : BitVec 12)).toNat % 4 ≠ 0 ∧
      (mapped 0x40000006 (page 0x21 0x40002 5 6)).readGr 5 + lse (0 : BitVec 12) = 0x40002000 ∧
      (mapped 0x40000006 (page 0x21 0x40002 5 6)).logicalSeg 0x40002000 = 0x21 :=
  ⟨.arithOfs .add 1 false false 3 0 5, .arithOfs .add 1 false false 2 0 5, by decide, by decide, by decide, by decide⟩

/-- The longest field that fits, from the instruction and from SHAMT. -/
theorem witness_ExtrResult :
    (31 : Nat) = (1 : BitVec 5).toNat + 30 ∧ (16 : BitVec 5).toNat + (16 : BitVec 5).toNat ≤ 32 ∧
      (((start []).writeCr 2 28).readCr 2).toNat + (4 : BitVec 5).toNat ≤ 32 := by decide

/-- A field at the left edge, an empty one, and one placed by SHAMT. -/
theorem witness_DepResult :
    (31 : BitVec 5).toNat + (0 : BitVec 5).toNat ≤ 32 ∧ (31 : BitVec 5).toNat + (1 : BitVec 5).toNat ≤ 32 ∧
      (((start []).writeCr 2 28).readCr 2).toNat + (4 : BitVec 5).toNat ≤ 32 := by decide

theorem witness_BitFieldStops :
    32 < (2 : BitVec 5).toNat + (31 : BitVec 5).toNat ∧
      32 < (((start []).writeCr 2 28).readCr 2).toNat + (5 : BitVec 5).toNat := by decide

theorem witness_DsrResult : (16 : Nat) = (((start []).writeCr 2 16).readCr 2).toNat := by decide

/-- A logical load with a negative index and M, and an extended one. -/
theorem witness_LoadResult :
    (accessOfs true 5 ((LoadForm.logicalIdx 4).disp ((start [(4, 0xFFFFFFFC), (5, 0x3004)]).poke 0x3000 0x11223344))
        ((start [(4, 0xFFFFFFFC), (5, 0x3004)]).poke 0x3000 0x11223344) = 0x3000) ∧
      ReadGives ((start [(5, 0x3000)]).poke 0x3000 0x11223344)
        ((LoadForm.logicalOfs 0).segId ((start [(5, 0x3000)]).poke 0x3000 0x11223344) 0x3000) 0x3000 .word
        0x11223344 ∧
      (LoadForm.extendedOfs 0 0).enabled ((mapped 0x40000004 (page 0x21 0x40002 7 6)).poke 0x6000 0x2A) ∧
      ReadGives ((mapped 0x40000004 (page 0x21 0x40002 7 6)).poke 0x6000 0x2A)
        ((LoadForm.extendedOfs 0 0).segId ((mapped 0x40000004 (page 0x21 0x40002 7 6)).poke 0x6000 0x2A) 0x40002000)
        0x40002000 .word 0x2A := by
  refine ⟨by decide, readGives_untranslated, ?_, readGives_translated⟩
  unfold LoadForm.enabled
  decide

/-- A logical store at the top of RAM, and an extended one through an entry. -/
theorem witness_StoreResult :
    accessOfs true 5 (lse (0xFF9 : BitVec 12)) (start [(5, 0xF0000000)]) = 0xEFFFFFFC ∧
      Reaches (start [(5, 0xF0000000)]) .write (storeSegId none (start [(5, 0xF0000000)]) 0xEFFFFFFC) 0xEFFFFFFC .word
        0xEFFFFFFC ∧ Writable 0xEFFFFFFC ∧
      (mapped 0x40000004 (page 0x21 0x40002 7 6)).dBit = true ∧
      Reaches (mapped 0x40000004 (page 0x21 0x40002 7 6)) .write
        (storeSegId (some 0) (mapped 0x40000004 (page 0x21 0x40002 7 6)) 0x40002000) 0x40002000 .word 0x6000 ∧
      Writable 0x6000 := by
  refine ⟨by decide, ⟨by decide, .inl ⟨by decide, rfl⟩⟩, by unfold Writable; decide, by decide, ⟨by decide,
    .inr ⟨by decide, by decide, page 0x21 0x40002 7 6, by decide, by decide, by decide, by decide, by decide,
      by decide, by decide⟩⟩, by unfold Writable; decide⟩

/-- LDWR and STWC, without and with the reservation, are data accesses. -/
theorem access_ldwr (s : State) : DataAccess s (.ldwrOfs 1 0 5) .read .word
    (s.logicalSeg (s.readGr 5 + lse (0 : BitVec 12))) (s.readGr 5 + lse (0 : BitVec 12)) := .ldwrOfs 1 0 5 _ rfl

theorem access_stwc (s : State) : DataAccess s (.stwc 1 0 5) .write .word
    (s.logicalSeg (s.readGr 5 + lse (0 : BitVec 12))) (s.readGr 5 + lse (0 : BitVec 12)) := .stwc 1 0 5 _ rfl

/-- Each trap, at the load LDW r1, 0(r5) and the store STW 0(r5), r1: misaligned; no entry; a page a user may not
read or write; no matching protection id; T, D on a write, and B. -/
theorem witness_DataTraps :
    DataAccess (start [(5, 0x3002)]) (.ldwOfs 1 false 0 5) .read .word ((start [(5, 0x3002)]).logicalSeg 0x3002) 0x3002 ∧
      (0x3002 : Word).toNat % 4 ≠ 0 ∧
      DataAccess (mapped 4 (page 0x21 0x40002 7 6)) (.stw 1 false 0 5) .write .word
        (storeSegId none (mapped 4 (page 0x21 0x40002 7 6)) 0x40002000) 0x40002000 ∧
      storeSegId none (mapped 4 (page 0x21 0x40002 7 6)) 0x40002000 = 0x21 ∧
      (mapped 4 (page 0x21 0x40003 7 6)).tlbLookup .data 0x21 0x40002000 = none ∧
      (∀ e ∈ [page 0x21 0x40002 5 6, { page 0x21 0x40002 7 6 with pid := 0x42 },
          { page 0x21 0x40002 7 6 with t := true }, { page 0x21 0x40002 7 6 with d := true },
          { page 0x21 0x40002 7 6 with b := true }],
        (mapped 0x40000006 e).tlbLookup .data 0x21 0x40002000 = some e) ∧
      accessAllowed .read 5 (mapped 0x40000006 (page 0x21 0x40002 5 6)).level = false ∧
      accessAllowed .write 6 (mapped 0x40000006 (page 0x21 0x40002 6 6)).level = false ∧
      accessAllowed .write 7 (mapped 0x40000006 (page 0x21 0x40002 7 6)).level = true ∧
      (mapped 0x40000006 (page 0x21 0x40002 7 6)).pBit = true ∧
      (mapped 0x40000006 (page 0x21 0x40002 7 6)).pidAllowed .read 0x42 = false ∧
      (mapped 0x40000006 (page 0x21 0x40002 7 6)).pidAllowed .read 0 = true ∧
      (mapped 4 (page 0x21 0x40002 7 6)).pBit = false :=
  ⟨.load .word 1 false 5 (.logicalOfs 0) _ trivial (by decide), by decide,
    .store .word 1 false 5 0 none _ (.inl rfl) (by decide), by decide, by decide, by decide, by decide, by decide,
    by decide, by decide, by decide, by decide, by decide⟩

/-- An instruction, and a fetched LDEXB with a reserved bit. -/
theorem witness_ExtendedNeedsTranslation :
    (start []).dBit = false ∧ fld 0xC0600100 0 6 ∈ [0x30#6, 0x31#6] ∧ fld 0xC0600100 16 8 ≠ 0#8 ∧
      Fetches ((start []).poke 0x1000 0xC0600100) 0xC0600100 ((start []).poke 0x1000 0xC0600100) :=
  ⟨by decide, by decide, by decide, fetches_poke _⟩

/-- The first and last word of the PDC region, of the range after it and of the IO window. -/
theorem stopsAt_edges (s : State) (h : s.pdcWords = []) :
    StopsAt s .read 0xF0000000 (.fault (.unmapped 0xF0000000)) ∧
      StopsAt s .read 0xF0FFFFFC (.fault (.unmapped 0xF0FFFFFC)) ∧
      StopsAt s .write 0xF0000000 (.refused (.pdcWrite 0xF0000000)) ∧
      StopsAt s .write 0xF0FFFFFC (.refused (.pdcWrite 0xF0FFFFFC)) ∧
      StopsAt s .read 0xF1000000 (.fault (.unmapped 0xF1000000)) ∧
      StopsAt s .write 0xFEFFFFFC (.fault (.unmapped 0xFEFFFFFC)) ∧
      StopsAt s .read 0xFF000000 (.refused (.ioAccess 0xFF000000)) ∧
      StopsAt s .write 0xFFFFFFFC (.refused (.ioAccess 0xFFFFFFFC)) :=
  ⟨.pdcRead rfl (by decide) (by decide) (by simp [h]), .pdcRead rfl (by decide) (by decide) (by simp [h]),
    .pdcWrite rfl (by decide) (by decide), .pdcWrite rfl (by decide) (by decide), .unassigned (by decide) (by decide),
    .unassigned (by decide) (by decide), .io (by decide), .io (by decide)⟩

/-- A translated load and store to the IO window; STWC with the reservation; a memory operand; LDWAX; the fetch after
reset, where no PDC code is placed, and a translated one. -/
theorem witness_PlatformStops :
    Reaches (mapped 4 (page 0x21 0x40002 7 0xFF000)) .read 0x21 0x40002000 .word 0xFF000000 ∧
      Reaches (mapped 4 (page 0x21 0x40002 7 0xFF000)) .write 0x21 0x40002000 .word 0xFF000000 ∧
      ((mapped 4 (page 0x21 0x40002 7 0xFF000)).logicalSeg 0x40002000 = 0x21 ∧
        (mapped 4 (page 0x21 0x40002 7 0xFF000)).readGr 5 + lse (0 : BitVec 12) = 0x40002000) ∧
      (({ mapped 4 (page 0x21 0x40002 7 0xFF000) with lrValid := true, lrAddr := 0xFF000000 } : State).lrValid = true ∧
        Reaches { mapped 4 (page 0x21 0x40002 7 0xFF000) with lrValid := true, lrAddr := 0xFF000000 } .write 0x21
          0x40002000 .word 0xFF000000) ∧
      (AbsoluteAccess (start [(5, 0xF1000000)]) (.ldwax 1 true 4 5) .read (accessOfs true 5
          ((start [(5, 0xF1000000)]).readGr 4) (start [(5, 0xF1000000)])) ∧ (start [(5, 0xF1000000)]).xBit = false ∧
        accessOfs true 5 ((start [(5, 0xF1000000)]).readGr 4) (start [(5, 0xF1000000)]) = 0xF1000000) ∧
      (State.reset.interruptTaken = false ∧ FetchReaches State.reset 0xF0000000 ∧ State.reset.pdcWords = []) ∧
      FetchReaches (fetching 0x20000000 [page 0x20 5 0xB 0xFF000]) 0xFF000000 :=
  ⟨⟨by decide, .inr ⟨by decide, by decide, page 0x21 0x40002 7 0xFF000, by decide⟩⟩,
    ⟨by decide, .inr ⟨by decide, by decide, page 0x21 0x40002 7 0xFF000, by decide⟩⟩, by decide,
    ⟨rfl, by decide, .inr ⟨by decide, by decide, page 0x21 0x40002 7 0xFF000, by decide⟩⟩,
    ⟨.ldwax 1 true 4 5, by decide, by decide⟩, ⟨by decide, .inl ⟨by decide, by decide⟩, rfl⟩,
    .inr ⟨by decide, by decide, page 0x20 5 0xB 0xFF000, by decide⟩⟩

/-- The last word of RAM and the first of the PDC region with code placed; a misaligned address. -/
theorem witness_LdwaResult :
    (start [(5, 0xF0000000)]).xBit = false ∧
      accessOfs true 5 (lse (0xFFF9 : BitVec 16)) (start [(5, 0xF0000000)]) = 0xEFFFFFFC ∧
      (0xEFFFFFFC : Word).toNat % 4 = 0 ∧ Readable (start []) 0xEFFFFFFC ∧
      Readable { start [] with pdcWords := [0x3C000000] } 0xF0000000 ∧
      (0x3002 : Word).toNat % 4 ≠ 0 := by
  unfold Readable
  decide

theorem witness_StwaResult :
    (start [(5, 0xEFFFFFFC)]).xBit = false ∧
      accessOfs true 5 (lse (8 : BitVec 16)) (start [(5, 0xEFFFFFFC)]) = 0xEFFFFFFC ∧
      (0xEFFFFFFC : Word).toNat % 4 = 0 ∧ Writable 0xEFFFFFFC ∧ (0x3002 : Word).toNat % 4 ≠ 0 := by
  unfold Writable
  decide

theorem witness_LdwrResult :
    Reaches (start [(5, 0x3000)]) .read ((start [(5, 0x3000)]).logicalSeg 0x3000) 0x3000 .word 0x3000 ∧
      Readable (start [(5, 0x3000)]) 0x3000 :=
  ⟨⟨by decide, .inl ⟨by decide, rfl⟩⟩, by unfold Readable; decide⟩

/-- With the reservation of the word, and without one. -/
theorem witness_StwcResult :
    (0x3000 : Word) = ({ start [(5, 0x3000)] with lrValid := true, lrAddr := 0x3000 } : State).readGr 5 +
        lse (0 : BitVec 12) ∧
      Reaches { start [(5, 0x3000)] with lrValid := true, lrAddr := 0x3000 } .write
        (({ start [(5, 0x3000)] with lrValid := true, lrAddr := 0x3000 } : State).logicalSeg 0x3000) 0x3000 .word
        0x3000 ∧ Writable 0x3000 ∧
      Reaches (start [(5, 0x3000)]) .write ((start [(5, 0x3000)]).logicalSeg 0x3000) 0x3000 .word 0x3000 ∧
      (start [(5, 0x3000)]).lrValid = false :=
  ⟨by decide, ⟨by decide, .inl ⟨by decide, rfl⟩⟩, by unfold Writable; decide, ⟨by decide, .inl ⟨by decide, rfl⟩⟩,
    by decide⟩

/-- Untranslated; in segment zero; on a gateway page and on another page. -/
theorem witness_GateResult :
    (start []).cBit = false ∧ ((start []).status 0x20000000).cBit = true ∧
      ((start []).status 0x20000000).iaSeg = 0 ∧
      (fetching 0x60000000 [page 0x20 5 0xE 1]).cBit = true ∧ (fetching 0x60000000 [page 0x20 5 0xE 1]).iaSeg ≠ 0 ∧
      (fetching 0x60000000 [page 0x20 5 0xE 1]).tlbLookup .instr 0x20 0x5000 = some (page 0x20 5 0xE 1) ∧
      pageType 0xE = 3 ∧ min (fetching 0x60000000 []).level (arPl2 0xE) = 0 ∧
      (fetching 0x60000000 [page 0x20 5 0xA 1]).tlbLookup .instr 0x20 0x5000 = some (page 0x20 5 0xA 1) ∧
      pageType 0xA ≠ 3 := by decide

theorem witness_MrResult :
    ((start []).status 0x40000000).xBit = true ∧ (4 : SReg).toNat < 5 ∧ (start []).xBit = false := by decide

theorem witness_MstResult :
    (start [(4, 0xFFFFFFC2)]).xBit = false ∧
      ∃ new : Nat → Bool, Instr.mst 1 4 = .mst 1 4 ∧ ∀ k, new k = ((start [(4, 0xFFFFFFC2)]).readGr 4).getLsbD k :=
  ⟨by decide, fun k => ((start [(4, 0xFFFFFFC2)]).readGr 4).getLsbD k, rfl, fun _ => rfl⟩

theorem witness_PrivilegedTrap :
    privilegedInstr .rfi = true ∧ privilegedInstr (.mrToSr 3 5) = true ∧ privilegedInstr (.mrToSr 3 4) = false ∧
      ((start []).status 0x40000000).xBit = true := by decide

/-- In segment zero; with an entry; without one. -/
theorem witness_LdpaResult :
    (mapped 0 (page 0x21 0x40002 0 6)).xBit = false ∧ (start []).logicalSeg 0x3000 = 0 ∧
      (0x40002000 : Word) = (mapped 0 (page 0x21 0x40002 0 6)).readGr 5 + lse (0 : BitVec 12) ∧
      (mapped 0 (page 0x21 0x40002 0 6)).logicalSeg 0x40002000 = 0x21 ∧
      (mapped 0 (page 0x21 0x40002 0 6)).tlbLookup .data 0x21 0x40002000 = some (page 0x21 0x40002 0 6) ∧
      (mapped 0 (page 0x21 0x40003 0 6)).tlbLookup .data 0x21 0x40002000 = none := by decide

/-- In segment zero; an entry that lets a user read and not write; no entry. -/
theorem witness_PrbResult :
    (start []).extSeg 0 0x3000 = 0 ∧ (mapped 0 (page 0x21 0x40002 6 6)).extSeg 0 0x40002000 = 0x21 ∧
      (mapped 0 (page 0x21 0x40002 6 6)).tlbLookup .data 0x21 0x40002000 = some (page 0x21 0x40002 6 6) ∧
      accessAllowed .read 6 1 = true ∧ accessAllowed .write 6 1 = false ∧
      (mapped 0 (page 0x21 0x40002 6 6)).pBit = false ∧
      (mapped 0 (page 0x21 0x40003 6 6)).tlbLookup .data 0x21 0x40002000 = none := by decide

/-- With an entry for the page and without one, and another page. -/
theorem witness_ItlbResult :
    (mapped 0 (page 0x21 0x40002 6 6)).xBit = false ∧ (mapped 0 (page 0x21 0x40002 6 6)).readSr 5 = 0x21 ∧
      (mapped 0 (page 0x21 0x40002 6 6)).tlbFind .data 0x21 0x40002000 = some (page 0x21 0x40002 6 6) ∧
      (mapped 0 (page 0x21 0x40002 6 6)).tlbFind .instr 0x21 0x40002000 = none ∧
      ((0x21 : Word), vpnOf 0x40003000) ≠ (0x21, vpnOf 0x40002000) := by decide

theorem witness_PtlbResult : (mapped 0 (page 0x21 0x40002 6 6)).xBit = false := by decide

/-- In segment zero; with an entry; without one, in either TLB. -/
theorem witness_PcaResult :
    (start []).xBit = false ∧ (start []).readSr 1 = 0 ∧ (mapped 0 (page 0x21 0x40002 6 6)).readSr 5 ≠ 0 ∧
      (mapped 0 (page 0x21 0x40002 6 6)).tlbLookup (tlbSide true) 0x21 0x40002000 ≠ none ∧
      (mapped 0 (page 0x21 0x40002 6 6)).tlbLookup (tlbSide false) 0x21 0x40002000 = none ∧
      (mapped 0 (page 0x21 0x40003 6 6)).tlbLookup (tlbSide true) 0x21 0x40002000 = none := by decide

theorem witness_DiagResult : (start []).xBit = false := by decide

theorem witness_RfiResult : ((start []).writeCr 17 0x60000005).xBit = false := by decide

/-- The smallest BRK that traps. -/
theorem witness_BrkResult : ¬ ((0 : BitVec 4) = 0 ∧ (1 : BitVec 16) = 0) := by decide

/-- MR SR4, r3 at user level. -/
theorem witness_UserModeConfined :
    ((start [(3, 0x77)]).status 0x40000000).xBit = true ∧
      exec (.mrToSr 3 4) ((start [(3, 0x77)]).status 0x40000000) =
        .next ((((start [(3, 0x77)]).status 0x40000000).writeSr 4 0x77).advance) := ⟨by decide, by rfl⟩

/-- GATE, and the trap of a privileged instruction. -/
theorem witness_PrivilegeRises :
    ((start []).status 0x40000000).xBit = true ∧
      (match exec (.gate 2 6) ((start []).status 0x40000000) with
        | .next t => t.xBit
        | _ => true) = false ∧
      (match exec .rfi ((start []).status 0x40000000) with
        | .next t => t.xBit
        | _ => true) = false := by decide

theorem witness_OnlyStoresChangeMemory :
    mayStore (.ldil 1 1) = false ∧ exec (.ldil 1 1) (start []) = .next ((start []).result 1 (leftPart 1)) :=
  ⟨by decide, rfl⟩


end Sys2Proof.Machine
end

/-! PROOFS. LDIL and ADDIL (41_immediate.md R160 to R162): format IMM22 and the left part of a word as bit strings
written side by side, then the two instructions, whose effect is `result_spec`. -/

namespace Sys2Proof

/-- Only the bits of the field can be set in a word that holds one field. -/
theorem getLsbD_put {n : Nat} (i : Nat) (v : BitVec n) {k : Nat} (hk : k < 32) :
    (put i v).getLsbD k = (!decide (k < 32 - i - n) && v.getLsbD (k - (32 - i - n))) := by
  simp [put, hk]

/-- Format IMM22 (30_encoding.md R112): opcode, register and 22-bit value fill the word without a gap. -/
theorem put_imm22_eq_append (op : BitVec 6) (r : GReg) (v : BitVec 22) :
    put 0 op ||| put 6 r ||| put 10 v = op ++ r ++ v := by
  apply BitVec.eq_of_getLsbD_eq
  intro k hk
  refine .trans ?_ (BitVec.getLsbD_append (x := op ++ r) (y := v)).symm
  simp only [BitVec.getLsbD_or, getLsbD_put _ _ hk, BitVec.getLsbD_append]
  rcases Nat.lt_or_ge k 22 with hval | hval
  · simp [hval, show k < 26 by omega]
  · have hv : v.getLsbD k = false := BitVec.getLsbD_of_ge v k hval
    rcases Nat.lt_or_ge k 26 with hreg | hreg
    · simp [hv, hreg, show ¬ k < 22 by omega, show k - 22 < 4 by omega]
    · have hr : r.getLsbD (k - 22) = false := BitVec.getLsbD_of_ge r _ (by omega)
      simp [hv, hr, show ¬ k < 26 by omega, show ¬ k < 22 by omega, show ¬ k - 22 < 4 by omega,
        show k - 22 - 4 = k - 26 by omega]

namespace Machine

/-- The left part of a word is the 22-bit value with ten zeroes to its right (41_immediate.md R160). -/
theorem leftPart_eq_append (v : BitVec 22) : leftPart v = v ++ 0#10 := by
  apply BitVec.eq_of_getLsbD_eq
  intro k hk
  refine .trans ?_ (BitVec.getLsbD_append (x := v) (y := 0#10)).symm
  rcases Nat.lt_or_ge k 10 with hpad | hval
  · simp [leftPart, hpad]
  · simp [leftPart, hk, show ¬ k < 10 by omega]

/-- Settles O14: the word is format IMM22, the state after it is `State.result`. -/
theorem ldilResult : Obligations.LdilResult := by
  intro r v s
  refine ⟨put_imm22_eq_append 0x01#6 r v, s.result r (leftPart v), rfl, ?_⟩
  rw [← leftPart_eq_append]
  exact result_spec s r (leftPart v)

/-- Settles O15: as LDIL, with GR1 the target and the old GR[r] added. -/
theorem addilResult : Obligations.AddilResult := by
  intro r v s
  refine ⟨put_imm22_eq_append 0x02#6 r v, s.result 1#4 (s.readGr r + leftPart v), rfl, ?_⟩
  rw [← leftPart_eq_append]
  exact result_spec s 1#4 (s.readGr r + leftPart v)

end Machine
end Sys2Proof

/-! PROOFS. B, BR, BV and CBR (42_branch.md R170 to R173, R179): a word's fields written side by side for every
format, what setting IA-OFS leaves alone, then the four instructions. -/

namespace Sys2Proof

/-- Two fields side by side are one field: a word without gaps is taken apart from its right end, field by field. -/
theorem put_append {n m : Nat} (i : Nat) (x : BitVec n) (y : BitVec m) (h : i + n + m ≤ 32) :
    put i (x ++ y) = put i x ||| put (i + n) y := by
  apply BitVec.eq_of_getLsbD_eq
  intro k hk
  simp only [BitVec.getLsbD_or, getLsbD_put _ _ hk, BitVec.getLsbD_append]
  rcases Nat.lt_or_ge k (32 - i - (n + m)) with hbelow | hfield
  · simp [hbelow, show k < 32 - i - n by omega, show k < 32 - (i + n) - m by omega]
  rcases Nat.lt_or_ge k (32 - i - n) with hright | hleft
  · simp [hright, show k - (32 - i - (n + m)) < m by omega, show 32 - (i + n) - m = 32 - i - (n + m) by omega]
  · have hy : y.getLsbD (k - (32 - (i + n) - m)) = false := BitVec.getLsbD_of_ge y _ (by omega)
    simp [hy, show ¬ k < 32 - i - n by omega, show ¬ k < 32 - i - (n + m) by omega,
      show ¬ k - (32 - i - (n + m)) < m by omega, show k - (32 - i - (n + m)) - m = k - (32 - i - n) by omega]

/-- A field as wide as the word is the word; `h` counts the bits of fields written side by side. -/
theorem put_eq_cast {n : Nat} (v : BitVec n) (h : n = 32) : put 0 v = v.cast h := by
  subst h
  simp [put]

/-- A field of zeroes leaves the word zero. -/
theorem put_zero (i n : Nat) : put i 0#n = 0#32 := by simp [put]

namespace Machine

/-- A displacement in words counts four bytes each (42_branch.md R170). -/
theorem wordDisp_eq_mul (v : Word) : wordDisp v = 4#32 * v := by
  rw [wordDisp, BitVec.shiftLeft_eq_mul_twoPow, BitVec.mul_comm]
  rfl

/-- A frame does not speak of IA-OFS, so setting it keeps every frame. -/
theorem Frame.setIaOfs {w : Writes} {s t : State} (h : Frame w s t) (v : Word) : Frame w s (t.setIaOfs v) :=
  { gr := h.gr, sr := h.sr, cr := h.cr, status := h.status, iaSeg := h.iaSeg, tlbs := h.tlbs,
    reservation := h.reservation, caches := h.caches, extPending := h.extPending, pdcWords := h.pdcWords,
    memory := h.memory }

/-- A branch that puts v into GR[r]: the target, GR[r], and nothing else. -/
theorem writeGr_setIaOfs_spec (s : State) (r : GReg) (v target : Word) :
    ((s.writeGr r v).setIaOfs target).iaOfs = target &&& 0xFFFFFFFC#32 ∧
      ((s.writeGr r v).setIaOfs target).readGr r = (if r = 0#4 then 0#32 else v) ∧
      Frame { gr := [r] } s ((s.writeGr r v).setIaOfs target) := by
  obtain ⟨hr, -, hframe⟩ := result_spec s r v
  exact ⟨rfl, hr, hframe.setIaOfs target⟩

/-- Settles O38: format IMM22, and a branch whose link is the next instruction. -/
theorem branchResult : Obligations.BranchResult := by
  intro r d s
  refine ⟨put_imm22_eq_append 0x20#6 r d, _, rfl, ?_⟩
  rw [← wordDisp_eq_mul]
  exact writeGr_setIaOfs_spec s r s.linkOfs (s.iaOfs + wordDisp (lse d))

/-- The word of BR has zeroes between its two register fields. -/
theorem encode_br (r b : GReg) : encode (.br r b) = 0x22#6 ++ r ++ 0#18 ++ b := by
  refine .trans ?_ (put_eq_cast (0x22#6 ++ r ++ 0#18 ++ b) rfl)
  simp (disch := omega) only [put_append, put_zero, BitVec.or_zero]
  rfl

/-- Settles O39: as B, from GR[b], which is read before the link is written. -/
theorem brResult : Obligations.BrResult := by
  intro r b s
  refine ⟨encode_br r b, _, rfl, ?_⟩
  rw [← wordDisp_eq_mul]
  exact writeGr_setIaOfs_spec s r s.linkOfs (s.iaOfs + wordDisp (s.readGr b))

/-- The word of BV has zeroes between its opcode and its register fields. -/
theorem encode_bv (a b : GReg) : encode (.bv a b) = 0x23#6 ++ 0#18 ++ a ++ b := by
  refine .trans ?_ (put_eq_cast (0x23#6 ++ 0#18 ++ a ++ b) rfl)
  simp (disch := omega) only [put_append, put_zero, BitVec.or_zero]
  rfl

/-- Settles O40: only IA-OFS is set. -/
theorem bvResult : Obligations.BvResult := by
  intro a b s
  refine ⟨encode_bv a b, _, rfl, ?_⟩
  rw [← wordDisp_eq_mul]
  exact ⟨rfl, (frame_refl {} s).setIaOfs _⟩

/-- CBR has eight conditions. -/
theorem condition_cases (cond : BitVec 3) : cond = 0#3 ∨ cond = 1#3 ∨ cond = 2#3 ∨ cond = 3#3 ∨ cond = 4#3 ∨
    cond = 5#3 ∨ cond = 6#3 ∨ cond = 7#3 := by
  decide +revert

/-- CBR has one format under its eight conditions, with the condition's number in bits 6 to 8. -/
theorem encode_cbrInstr_eq_put (cond : BitVec 3) (d : BitVec 15) (a b : GReg) :
    encode (cbrInstr cond d a b) = put 0 0x27#6 ||| put 6 cond ||| put 9 d ||| put 24 a ||| put 28 b := by
  rcases condition_cases cond with rfl | rfl | rfl | rfl | rfl | rfl | rfl | rfl
  · rw [put_zero, BitVec.or_zero]
    rfl
  all_goals rfl

/-- The fields of CBR fill the word without a gap. -/
theorem encode_cbrInstr (cond : BitVec 3) (d : BitVec 15) (a b : GReg) :
    encode (cbrInstr cond d a b) = 0x27#6 ++ cond ++ d ++ a ++ b := by
  refine (encode_cbrInstr_eq_put cond d a b).trans (.trans ?_ (put_eq_cast (0x27#6 ++ cond ++ d ++ a ++ b) rfl))
  simp (disch := omega) only [put_append]

/-- Under each condition CBR is `condBranch` of the comparison the table of R179 gives for it. -/
theorem exec_cbrInstr (cond : BitVec 3) (d : BitVec 15) (a b : GReg) (s : State) :
    ∃ holds : Bool, (holds = true ↔ CbrHolds cond (s.readGr a) (s.readGr b)) ∧
      exec (cbrInstr cond d a b) s = .next (condBranch holds d s) := by
  rcases condition_cases cond with rfl | rfl | rfl | rfl | rfl | rfl | rfl | rfl
  · exact ⟨decide (s.readGr a = s.readGr b), by simp [CbrHolds], rfl⟩
  · exact ⟨decide ((s.readGr a).toInt < (s.readGr b).toInt), by simp [CbrHolds], rfl⟩
  · exact ⟨decide ((s.readGr b).toInt < (s.readGr a).toInt), by simp [CbrHolds], rfl⟩
  · exact ⟨decide ((s.readGr a).toNat ≤ (s.readGr b).toNat), by simp [CbrHolds], rfl⟩
  · exact ⟨decide (s.readGr a ≠ s.readGr b), by simp [CbrHolds], rfl⟩
  · exact ⟨decide ((s.readGr a).toInt ≤ (s.readGr b).toInt), by simp [CbrHolds], rfl⟩
  · exact ⟨decide ((s.readGr b).toInt ≤ (s.readGr a).toInt), by simp [CbrHolds], rfl⟩
  · exact ⟨decide ((s.readGr b).toNat < (s.readGr a).toNat), by simp [CbrHolds], rfl⟩

/-- CBR changes IA-OFS alone, whether it branches or not. -/
theorem frame_condBranch (holds : Bool) (d : BitVec 15) (s : State) : Frame {} s (condBranch holds d s) := by
  cases holds with
  | true => exact (frame_refl {} s).setIaOfs _
  | false => exact frame_advance s

/-- Settles O44: the word, the comparison of each condition, then the two outcomes of `condBranch`. -/
theorem cbrResult : Obligations.CbrResult := by
  intro cond d a b s
  obtain ⟨holds, hiff, hexec⟩ := exec_cbrInstr cond d a b s
  refine ⟨encode_cbrInstr cond d a b, _, hexec, frame_condBranch holds d s, ?_, ?_⟩
  · intro hc
    rw [hiff.mpr hc, ← wordDisp_eq_mul]
    rfl
  · intro hc
    rw [Bool.eq_false_iff.mpr (mt hiff.mp hc)]
    rfl

end Machine
end Sys2Proof

/-! PROOFS. LSID, DSR and CMR (43_computational.md R204, R212, R214): what selects a segment register and how two
words shift as one, the words of the three formats, then the instructions, each a `State.result` but for a CMR whose
condition fails. -/

namespace Sys2Proof

/-- The word of LSID has zeroes between its register fields. -/
theorem encode_lsid (r b : GReg) : encode (.lsid r b) = 0x04#6 ++ r ++ 0#18 ++ b := by
  refine .trans ?_ (put_eq_cast (0x04#6 ++ r ++ 0#18 ++ b) rfl)
  simp (disch := omega) only [put_append, put_zero, BitVec.or_zero]
  rfl

/-- The word of DSR has a zero bit before A and seven after it. -/
theorem encode_dsr (r : GReg) (av : Bool) (sh : BitVec 5) (a b : GReg) :
    encode (.dsr r av sh a b) = 0x07#6 ++ r ++ 0#1 ++ BitVec.ofBool av ++ 0#7 ++ sh ++ a ++ b := by
  refine .trans ?_ (put_eq_cast (0x07#6 ++ r ++ 0#1 ++ BitVec.ofBool av ++ 0#7 ++ sh ++ a ++ b) rfl)
  simp (disch := omega) only [put_append, put_zero, BitVec.or_zero]
  rfl

/-- The rightmost bit of a word is its parity. -/
theorem bit_31_eq_true_iff (x : Word) : bit x 31 = true ↔ x.toNat % 2 = 1 := by
  simp [bit, BitVec.getLsbD, Nat.testBit_zero]

theorem bit_31_eq_false_iff (x : Word) : bit x 31 = false ↔ x.toNat % 2 = 0 := by
  rw [← Bool.not_eq_true, bit_31_eq_true_iff, Nat.mod_two_not_eq_one]

namespace Machine

/-- The two leftmost bits of a logical address count from SR4 (20_memory.md R64). -/
theorem segSelect_eq_ofNat (x : Word) : segSelect x = BitVec.ofNat 3 (4 + x.toNat / 2 ^ 30) := by
  have hx : x.toNat / 2 ^ 30 < 4 := by omega
  apply BitVec.eq_of_toNat_eq
  simp only [segSelect, BitVec.toNat_add, BitVec.toNat_setWidth, BitVec.extractLsb'_toNat, BitVec.toNat_ofNat,
    Nat.shiftRight_eq_div_pow]
  omega

/-- Settles O28: LSID reads the register that `segSelect` names, at any level. -/
theorem lsidResult : Obligations.LsidResult := by
  intro r b s
  refine ⟨encode_lsid r b, _, rfl, ?_⟩
  rw [← segSelect_eq_ofNat]
  exact result_spec s r (s.logicalSeg (s.readGr b))

/-- Two words shifted as one (43_computational.md R212): they are concatenated, shifted, and cut to the lower word. -/
theorem doubleShift_eq_append (left right : Word) (n : Nat) :
    doubleShift left right n = ((left ++ right) >>> n).setWidth 32 := by
  have happ : (left ++ right).toNat = left.toNat * 2 ^ 32 + right.toNat := by
    rw [BitVec.toNat_append, ← Nat.shiftLeft_add_eq_or_of_lt right.isLt, Nat.shiftLeft_eq]
  apply BitVec.eq_of_toNat_eq
  rw [doubleShift, BitVec.toNat_ofNat, BitVec.toNat_setWidth, BitVec.toNat_ushiftRight, happ,
    Nat.shiftRight_eq_div_pow]

/-- Bit k of the shifted pair comes from the right word as long as it has bits left, then from the left one. -/
theorem getLsbD_doubleShift (left right : Word) (n : Nat) {k : Nat} (hk : k < 32) :
    (doubleShift left right n).getLsbD k =
      if k + n < 32 then right.getLsbD (k + n) else left.getLsbD (k + n - 32) := by
  rw [doubleShift_eq_append, BitVec.getLsbD_setWidth, BitVec.getLsbD_ushiftRight, BitVec.getLsbD_append,
    Nat.add_comm n k]
  simp [hk]

/-- Settles O27: the bits of `doubleShift`, by the amount of the word or of SHAMT. -/
theorem dsrResult : Obligations.DsrResult := by
  intro r a b av sh s n hn
  have hshift : s.fieldShift av sh = n := hn.symm
  obtain ⟨hread, hadv, hframe⟩ := result_spec s r (doubleShift (s.readGr b) (s.readGr a) n)
  refine ⟨encode_dsr r av sh a b, _, by rw [← hshift]; rfl, fun k hk => ?_, hadv, hframe⟩
  rw [hread]
  by_cases hr : r = 0#4
  · simp [hr]
  · simp only [hr, if_false]
    exact getLsbD_doubleShift _ _ n hk

/-- CMR has one format under its eight conditions, with the condition's number in bits 10 to 12. -/
theorem encode_cmrInstr_eq_put (cond : BitVec 3) (r a b : GReg) :
    encode (cmrInstr cond r a b) = put 0 0x09#6 ||| put 6 r ||| put 10 cond ||| put 24 a ||| put 28 b := by
  rcases condition_cases cond with rfl | rfl | rfl | rfl | rfl | rfl | rfl | rfl
  · rw [put_zero, BitVec.or_zero]
    rfl
  all_goals rfl

/-- The word of CMR has zeroes between the condition and its source registers. -/
theorem encode_cmrInstr (cond : BitVec 3) (r a b : GReg) :
    encode (cmrInstr cond r a b) = 0x09#6 ++ r ++ cond ++ 0#11 ++ a ++ b := by
  refine (encode_cmrInstr_eq_put cond r a b).trans
    (.trans ?_ (put_eq_cast (0x09#6 ++ r ++ cond ++ 0#11 ++ a ++ b) rfl))
  simp (disch := omega) only [put_append, put_zero, BitVec.or_zero]

/-- Under each condition CMR is `condMove` of the test the table of R204 gives for it. -/
theorem exec_cmrInstr (cond : BitVec 3) (r a b : GReg) (s : State) :
    ∃ holds : Bool, (holds = true ↔ CmrHolds cond (s.readGr b)) ∧
      exec (cmrInstr cond r a b) s = .next (condMove holds r a s) := by
  rcases condition_cases cond with rfl | rfl | rfl | rfl | rfl | rfl | rfl | rfl
  · exact ⟨decide (s.readGr b = 0#32), by simp [CmrHolds], rfl⟩
  · exact ⟨decide ((s.readGr b).toInt < 0), by simp [CmrHolds], rfl⟩
  · exact ⟨decide (0 < (s.readGr b).toInt), by simp [CmrHolds], rfl⟩
  · exact ⟨decide (bit (s.readGr b) 31 = false), by simp [CmrHolds, bit_31_eq_false_iff], rfl⟩
  · exact ⟨decide (s.readGr b ≠ 0#32), by simp [CmrHolds], rfl⟩
  · exact ⟨decide ((s.readGr b).toInt ≤ 0), by simp [CmrHolds], rfl⟩
  · exact ⟨decide (0 ≤ (s.readGr b).toInt), by simp [CmrHolds], rfl⟩
  · exact ⟨decide (bit (s.readGr b) 31 = true), by simp [CmrHolds, bit_31_eq_true_iff], rfl⟩

/-- Settles O22: the word, the test of each condition, then the two outcomes of `condMove`. -/
theorem cmrResult : Obligations.CmrResult := by
  intro cond r a b s
  obtain ⟨holds, hiff, hexec⟩ := exec_cmrInstr cond r a b s
  refine ⟨encode_cmrInstr cond r a b, _, hexec, ?_, ?_⟩
  · intro hc
    rw [hiff.mpr hc]
    exact result_spec s r (s.readGr a)
  · intro hc
    rw [Bool.eq_false_iff.mpr (mt hiff.mp hc)]
    exact ⟨rfl, frame_advance s⟩

end Machine
end Sys2Proof

/-! PROOFS. What an instruction can do, once for all of them: `Effect` lists the shapes a next state has, by the
instruction and the level, and `exec_effect` is the case split over the instructions. What every step keeps, what user
level cannot reach and what changes memory are then read off the shapes. -/

namespace Sys2Proof.Machine

/-- The state after an instruction that ran in `s`, by the shape of its effect. -/
inductive Effect (s : State) : Instr → State → Prop where
  | trap {i : Instr} (tr : Trap) : Effect s i (s.takeTrap tr)
  | advance {i : Instr} : Effect s i s.advance
  | result {i : Instr} (r : GReg) (v : Word) : Effect s i (s.result r v)
  | carryResult {i : Instr} (c : Bool) (r : GReg) (v : Word) : Effect s i ((s.setStatusBit stCb c).result r v)
  | load {i : Instr} (b : GReg) (base : Option Word) (r : GReg) (v : Word) :
      Effect s i ((s.writeBase b base).result r v)
  | store {i : Instr} (p : Word) (w : Width) (v : Word) (b : GReg) (base : Option Word) : mayStore i = true →
      Writable p → Effect s i ((s.storeBytes p w v).writeBase b base).advance
  | loadReserved {i : Instr} (p : Word) (r : GReg) (v : Word) :
      Effect s i ({ s with lrValid := true, lrAddr := p }.result r v)
  | storeReserved {i : Instr} (p : Word) (w : Width) (v : Word) (r : GReg) : mayStore i = true → Writable p →
      Effect s i ((s.storeBytes p w v).endReservation.result r 0#32)
  | reservationLost {i : Instr} (r : GReg) : Effect s i (s.endReservation.result r 1#32)
  | jump {i : Instr} (target : Word) : Effect s i (s.setIaOfs target)
  | link {i : Instr} (r : GReg) (v target : Word) : Effect s i ((s.writeGr r v).setIaOfs target)
  | external {i : Instr} (seg target : Word) : Effect s i ((s.enterSeg seg).setIaOfs target)
  | externalLink {i : Instr} (seg target : Word) :
      Effect s i ((((s.writeSr 0#3 s.iaSeg).writeGr 1#4 s.linkOfs).enterSeg seg).setIaOfs target)
  | gate (r : GReg) (d : BitVec 22) (target : Word) :
      Effect s (.gate r d) (((s.writeGr r (boolWord s.xBit)).setStatusBit stX s.gateLevel).setIaOfs target)
  | writeSr {i : Instr} (sr : SReg) (v : Word) : s.xBit = false ∨ sr.toNat < 5 → Effect s i (s.writeSr sr v).advance
  | writeCr {i : Instr} (cr : CReg) (v : Word) : s.xBit = false ∨ cr = 2#5 → Effect s i (s.writeCr cr v).advance
  | moveStatus {i : Instr} (r : GReg) (v : Word) : s.xBit = false → Effect s i (moveStatus r v s)
  | returnFromTrap {i : Instr} : s.xBit = false → Effect s i s.returnFromTrap
  | setTlb {i : Instr} (side : TlbSide) (l : List TlbEntry) : s.xBit = false →
      (Rising entryKey (s.tlb side) → Rising entryKey l) → Effect s i (s.setTlb side l).advance

/-- A concluded operation traps in the state it started in, or ends as the operation does. -/
theorem effect_conclude {s t : State} {i : Instr} {r : Except Stop State} (h : conclude s r = .next t)
    (hr : ∀ u, r = .ok u → Effect s i u) : Effect s i t := by
  rcases conclude_next h with h | ⟨tr, -, rfl⟩
  · exact hr t h
  · exact .trap tr

theorem privileged_ok {s t : State} {w : Word} {r : Except Stop State} (h : privileged s w r = .ok t) :
    s.xBit = false ∧ r = .ok t := by
  cases hx : s.xBit with
  | false => exact ⟨rfl, by rwa [privileged_priv hx] at h⟩
  | true => rw [privileged_user hx] at h; cases h

theorem extended_ok {s t : State} {w : Word} {r : Except Stop State} (h : extended s w r = .ok t) : r = .ok t := by
  unfold extended at h
  split at h
  · exact h
  · cases h

/-- On the default platform only RAM takes a write. -/
theorem physWrite_eq_ok {s u : State} {p : Word} {w : Width} {v : Word} (h : s.physWrite p w v = .ok u) :
    Writable p ∧ u = s.storeBytes p w v := by
  by_cases hp : Writable p
  · rw [physWrite_ok w v hp] at h
    cases h
    exact ⟨hp, rfl⟩
  · have hregion : regionOf p ≠ .ram := by
      unfold regionOf
      rw [if_neg (show ¬ p.toNat < Config.memSize from hp)]
      split
      · simp
      · split
        · simp
        · split <;> simp
    unfold State.physWrite at h
    split at h
    · exact absurd ‹_› hregion
    all_goals cases h

theorem memWrite_eq_ok {s u : State} {instr seg ofs v : Word} {w : Width} (h : s.memWrite instr seg ofs w v = .ok u) :
    ∃ p, Writable p ∧ u = s.storeBytes p w v := by
  unfold State.memWrite at h
  split at h
  · exact ⟨_, physWrite_eq_ok h⟩
  · cases h

theorem effect_arith {s t : State} {op : Word → Word → Bool → ArithResult} {flag : Bool → Bool} {carryIn : Bool}
    {instr : Word} {r : GReg} {o l : Bool} {x : Operand} (i : Instr)
    (h : conclude s (arith op flag carryIn instr r o l x s) = .next t) : Effect s i t := by
  refine effect_conclude h (fun u hu => ?_)
  unfold arith at hu
  split at hu
  · cases hu
  · cases l with
    | true =>
      simp only [if_true] at hu
      split at hu
      · cases hu
      · cases hu
        exact .result r _
    | false =>
      simp only [Bool.false_eq_true, if_false] at hu
      split at hu
      · cases hu
      · cases hu
        exact .carryResult _ r _

/-- The operation on two words of AND, OR and XOR (43_computational.md R196 to R198). -/
def LogicOp.fn : LogicOp → Word → Word → Word
  | .and => (· &&& ·)
  | .or => (· ||| ·)
  | .xor => (· ^^^ ·)

/-- AND, OR and XOR have one meaning in every operand form. -/
theorem exec_logicInstr (op : LogicOp) (r : GReg) (n c : Bool) (x : Operand) (s : State) :
    exec (logicInstr op r n c x) s =
      conclude s (logical op.fn (encode (logicInstr op r n c x)) r n c x s) := by
  cases op <;> cases x <;> rfl

theorem effect_logicInstr {s t : State} (op : LogicOp) {r : GReg} {n c : Bool} (x : Operand)
    (h : exec (logicInstr op r n c x) s = .next t) : Effect s (logicInstr op r n c x) t := by
  rw [exec_logicInstr] at h
  refine effect_conclude h (fun u hu => ?_)
  unfold logical at hu
  split at hu
  · cases hu
  · cases hu
    exact .result r _

/-- The comparison of CMP and of CMPU (43_computational.md R200, R201). -/
def compareFn (signed : Bool) : BitVec 2 → Word → Word → Bool := if signed then cmpSigned else cmpUnsigned

/-- CMP and CMPU have one meaning in every operand form. -/
theorem exec_compareInstr (signed : Bool) (r : GReg) (cond : BitVec 2) (x : Operand) (s : State) :
    exec (compareInstr signed r cond x) s =
      conclude s (compareOp (compareFn signed cond) (encode (compareInstr signed r cond x)) r x s) := by
  cases signed <;> cases x <;> rfl

theorem effect_compareInstr {s t : State} (signed : Bool) {r : GReg} {cond : BitVec 2} (x : Operand)
    (h : exec (compareInstr signed r cond x) s = .next t) : Effect s (compareInstr signed r cond x) t := by
  rw [exec_compareInstr] at h
  refine effect_conclude h (fun u hu => ?_)
  unfold compareOp at hu
  split at hu
  · cases hu
  · cases hu
    exact .result r _

theorem effect_load {s t : State} {instr : Word} {w : Width} {r : GReg} {m : Bool} {b : GReg} {disp : Word}
    {segOf : Word → Word} (i : Instr) (h : load instr w r m b disp segOf s = .ok t) : Effect s i t := by
  unfold load at h
  dsimp only at h
  split at h
  · cases h
    exact .load b _ r _
  · cases h

theorem effect_store {s t : State} {instr : Word} {w : Width} {r : GReg} {m : Bool} {b : GReg} {disp : Word}
    {segOf : Word → Word} {i : Instr} (hi : mayStore i = true) (h : store instr w r m b disp segOf s = .ok t) :
    Effect s i t := by
  unfold store at h
  dsimp only at h
  split at h
  · cases h
    obtain ⟨p, hp, rfl⟩ := memWrite_eq_ok ‹_›
    exact .store p w _ b _ hi hp
  · cases h

theorem effect_loadAbsolute {s t : State} {instr : Word} {r : GReg} {m : Bool} {b : GReg} {disp : Word} (i : Instr)
    (h : loadAbsolute instr r m b disp s = .ok t) : Effect s i t := by
  unfold loadAbsolute at h
  dsimp only at h
  split at h
  · split at h
    · cases h
      exact .load b _ r _
    · cases h
  · cases h

theorem effect_storeAbsolute {s t : State} {instr : Word} {r : GReg} {m : Bool} {b : GReg} {disp : Word} {i : Instr}
    (hi : mayStore i = true) (h : storeAbsolute instr r m b disp s = .ok t) : Effect s i t := by
  unfold storeAbsolute at h
  dsimp only at h
  split at h
  · split at h
    · cases h
      obtain ⟨hp, rfl⟩ := physWrite_eq_ok ‹_›
      exact .store _ .word _ b _ hi hp
    · cases h
  · cases h

theorem effect_loadReserved {s t : State} {instr : Word} {r : GReg} {x : Word} (i : Instr)
    (h : loadReserved instr r x s = .ok t) : Effect s i t := by
  unfold loadReserved at h
  split at h
  · cases h
  · split at h
    · cases h
    · cases h
      exact .loadReserved _ r _

theorem effect_storeConditional {s t : State} {instr : Word} {r : GReg} {x : Word} {i : Instr}
    (hi : mayStore i = true) (h : storeConditional instr r x s = .ok t) : Effect s i t := by
  unfold storeConditional at h
  split at h
  · cases h
  · split at h
    · split at h
      · cases h
      · cases h
        obtain ⟨hp, rfl⟩ := physWrite_eq_ok ‹_›
        exact .storeReserved _ .word _ r hi hp
    · cases h
      exact .reservationLost r

theorem effect_loadPhysAddr {s t : State} {r : GReg} {x : Word} (i : Instr) (h : loadPhysAddr r x s = .ok t) :
    Effect s i t := by
  unfold loadPhysAddr at h
  split at h
  · cases h
    exact .result r _
  · cases h

/-- With coherent caches a purge leaves everything alone. -/
theorem effect_purgeCache {s t : State} {tb f : Bool} {seg ofs : Word} (i : Instr)
    (h : purgeCache tb f seg ofs s = .ok t) : Effect s i t := by
  cases tb <;> simp only [purgeCache, flushData_eq, purgeData_eq, purgeInstr_eq, ite_self, if_true, if_false,
    Bool.false_eq_true] at h <;> split at h <;> cases h <;> exact .advance

theorem effect_condMove (s : State) (holds : Bool) (r a : GReg) (i : Instr) : Effect s i (condMove holds r a s) := by
  cases holds with
  | true => exact .result r _
  | false => exact .advance

theorem effect_condBranch (s : State) (holds : Bool) (d : BitVec 15) (i : Instr) :
    Effect s i (condBranch holds d s) := by
  cases holds with
  | true => exact .jump _
  | false => exact .advance

theorem effect_deposit {s t : State} {r : GReg} {z av : Bool} {len pos : BitVec 5} {src : Word} (i : Instr)
    (h : deposit r z av len pos src s = .next t) : Effect s i t := by
  unfold deposit at h
  dsimp only at h
  split at h
  · cases h
  · cases h
    exact .result r _

theorem effect_shla {s t : State} {r a b : GReg} {l o : Bool} {sa : BitVec 2}
    (h : execShla r l o sa a b s = .next t) : Effect s (.shla r l o sa a b) t := by
  unfold execShla at h
  split at h
  · exact effect_conclude h (fun _ hu => by cases hu)
  · cases h
    exact .result r _

theorem effect_extr {s t : State} {r b : GReg} {sg av : Bool} {len pos : BitVec 5}
    (h : execExtr r sg av len pos b s = .next t) : Effect s (.extr r sg av len pos b) t := by
  unfold execExtr at h
  dsimp only at h
  split at h
  · cases h
  · cases h
    exact .result r _

theorem effect_brk {s t : State} {info1 : BitVec 4} {info2 : BitVec 16} (h : execBrk info1 info2 s = .next t) :
    Effect s (.brk info1 info2) t := by
  unfold execBrk at h
  split at h
  · cases h
    exact .advance
  · exact effect_conclude h (fun _ hu => by cases hu)

theorem effect_mrToSr {s t : State} {r : GReg} {sr : SReg} (h : execMrToSr r sr s = .next t) :
    Effect s (.mrToSr r sr) t := by
  unfold execMrToSr at h
  split at h
  · exact effect_conclude h (fun _ hu => by cases hu)
  · rename_i hpriv
    cases h
    refine .writeSr sr _ ?_
    cases hx : s.xBit with
    | false => exact .inl rfl
    | true => exact .inr (by simpa [hx] using hpriv)

theorem effect_mrToCr {s t : State} {r : GReg} {cr : CReg} (h : execMrToCr r cr s = .next t) :
    Effect s (.mrToCr r cr) t := by
  unfold execMrToCr at h
  split at h
  · exact effect_conclude h (fun _ hu => by cases hu)
  · rename_i hpriv
    cases h
    refine .writeCr cr _ ?_
    cases hx : s.xBit with
    | false => exact .inl rfl
    | true => exact .inr (by simpa [hx] using hpriv)

theorem effect_prb {s t : State} {r : GReg} {m p byReg : Bool} {seg : BitVec 2} {a b : GReg}
    (h : execPrb r m p byReg seg a b s = .next t) : Effect s (.prb r m p byReg seg a b) t := by
  unfold execPrb at h
  dsimp only at h
  split at h
  · cases h
    exact .result r _
  · exact effect_conclude h (fun _ hu => by cases hu)

/-- With unbounded TLBs ITLB.A puts one entry in its place: the one that was there or a fresh one, filled. -/
theorem tlbInsertAddr_eq (s : State) (side : TlbSide) (seg ofs w : Word) :
    s.tlbInsertAddr side seg ofs w = s.setTlb side (sortedInsert entryKey
      { (s.tlbFind side seg ofs).getD (freshEntry seg (vpnOf ofs)) with
        v := false, ppn := fld w 0 (32 - Config.pageBits) } (s.tlb side)) := by
  unfold State.tlbInsertAddr
  split
  · rename_i e he
    rw [he]
    rfl
  · rename_i he
    rw [he]
    rfl

theorem effect_tlbInsertAddr {s : State} (hx : s.xBit = false) (i : Instr) (side : TlbSide) (seg ofs w : Word) :
    Effect s i (s.tlbInsertAddr side seg ofs w).advance := by
  rw [tlbInsertAddr_eq]
  exact .setTlb side _ hx (rising_sortedInsert _)

theorem effect_tlbInsertProt {s : State} (hx : s.xBit = false) (i : Instr) (side : TlbSide) (seg ofs w : Word) :
    Effect s i (s.tlbInsertProt side seg ofs w).advance := by
  unfold State.tlbInsertProt
  split
  · exact .setTlb side _ hx (rising_sortedInsert _)
  · exact .advance

theorem effect_tlbPurge {s : State} (hx : s.xBit = false) (i : Instr) (side : TlbSide) (seg ofs : Word) :
    Effect s i (s.tlbPurge side seg ofs).advance :=
  .setTlb side _ hx (rising_sortedErase _)

/-- A privileged operation has its effect at the privileged level only. -/
theorem effect_privileged {s t : State} {i : Instr} {w : Word} {r : Except Stop State}
    (h : conclude s (privileged s w r) = .next t) (hr : ∀ u, s.xBit = false → r = .ok u → Effect s i u) :
    Effect s i t :=
  effect_conclude h (fun u hu => hr u (privileged_ok hu).1 (privileged_ok hu).2)

/-- The effect of every instruction. -/
theorem exec_effect {i : Instr} {s t : State} (h : exec i s = .next t) : Effect s i t := by
  cases i with
  | brk => exact effect_brk h
  | ldil | addil | ldoImm | ldoIdx | ldoOfs | lsid | dsr | mrFromSr | mrFromCr =>
    cases h
    exact .result _ _
  | extr => exact effect_extr h
  | depReg | depImm => exact effect_deposit _ h
  | shla => exact effect_shla h
  | cmrEq | cmrLt | cmrGt | cmrEv | cmrNe | cmrLe | cmrGe | cmrOd =>
    cases h
    exact effect_condMove ..
  | mrToSr => exact effect_mrToSr h
  | mrToCr => exact effect_mrToCr h
  | mst | mstSet | mstClear =>
    refine effect_privileged h (fun u hx hu => ?_)
    cases hu
    exact .moveStatus _ _ hx
  | addImm | addReg | addIdx | addOfs | addcImm | addcReg | addcIdx | addcOfs | subImm | subReg | subIdx | subOfs
  | subcImm | subcReg | subcIdx | subcOfs => exact effect_arith _ h
  | andImm => exact effect_logicInstr .and (.imm ..) h
  | andReg => exact effect_logicInstr .and (.reg ..) h
  | andIdx => exact effect_logicInstr .and (.idx ..) h
  | andOfs => exact effect_logicInstr .and (.ofs ..) h
  | orImm => exact effect_logicInstr .or (.imm ..) h
  | orReg => exact effect_logicInstr .or (.reg ..) h
  | orIdx => exact effect_logicInstr .or (.idx ..) h
  | orOfs => exact effect_logicInstr .or (.ofs ..) h
  | xorImm => exact effect_logicInstr .xor (.imm ..) h
  | xorReg => exact effect_logicInstr .xor (.reg ..) h
  | xorIdx => exact effect_logicInstr .xor (.idx ..) h
  | xorOfs => exact effect_logicInstr .xor (.ofs ..) h
  | cmpImm => exact effect_compareInstr true (.imm ..) h
  | cmpReg => exact effect_compareInstr true (.reg ..) h
  | cmpIdx => exact effect_compareInstr true (.idx ..) h
  | cmpOfs => exact effect_compareInstr true (.ofs ..) h
  | cmpuImm => exact effect_compareInstr false (.imm ..) h
  | cmpuReg => exact effect_compareInstr false (.reg ..) h
  | cmpuIdx => exact effect_compareInstr false (.idx ..) h
  | cmpuOfs => exact effect_compareInstr false (.ofs ..) h
  | ldbIdx | ldhIdx | ldwIdx | ldbOfs | ldhOfs | ldwOfs => exact effect_conclude h (fun _ => effect_load _)
  | stb | sth | stw => exact effect_conclude h (fun _ => effect_store rfl)
  | ldwrIdx | ldwrOfs => exact effect_conclude h (fun _ => effect_loadReserved _)
  | stwc => exact effect_conclude h (fun _ => effect_storeConditional rfl)
  | branch | br =>
    cases h
    exact .link _ _ _
  | gate =>
    cases h
    exact .gate _ _ _
  | bv =>
    cases h
    exact .jump _
  | be | bve =>
    cases h
    exact .external _ _
  | ble =>
    cases h
    exact .externalLink _ _
  | cbrEq | cbrLt | cbrGt | cbrLs | cbrNe | cbrLe | cbrGe | cbrHi =>
    cases h
    exact effect_condBranch ..
  | ldeb | ldeh | ldew | ldexb | ldexh | ldexw =>
    exact effect_conclude h (fun _ hu => effect_load _ (extended_ok hu))
  | steb | steh | stew => exact effect_conclude h (fun _ hu => effect_store rfl (extended_ok hu))
  | ldwa | ldwax => exact effect_privileged h (fun _ _ => effect_loadAbsolute _)
  | stwa => exact effect_privileged h (fun _ _ => effect_storeAbsolute rfl)
  | ldpaIdx | ldpaOfs => exact effect_privileged h (fun _ _ => effect_loadPhysAddr _)
  | prb => exact effect_prb h
  | itlbA =>
    refine effect_privileged h (fun u hx hu => ?_)
    cases hu
    exact effect_tlbInsertAddr hx ..
  | itlbP =>
    refine effect_privileged h (fun u hx hu => ?_)
    cases hu
    exact effect_tlbInsertProt hx ..
  | ptlb =>
    refine effect_privileged h (fun u hx hu => ?_)
    cases hu
    exact effect_tlbPurge hx ..
  | pca => exact effect_privileged h (fun _ _ => effect_purgeCache _)
  | diag =>
    refine effect_privileged h (fun u _ hu => ?_)
    cases hu
    exact .result _ _
  | rfi =>
    refine effect_privileged h (fun u hx hu => ?_)
    cases hu
    exact .returnFromTrap hx

end Sys2Proof.Machine

/-! PROOFS. What is read off the shapes of `Effect`: stores alone change memory, user level is confined, the level rises
by a trap or GATE alone, and a step keeps the invariant. -/

namespace Sys2Proof.Machine

/-- Settles O58: every shape but those of stores has the memory it started with. -/
theorem onlyStoresChangeMemory : Obligations.OnlyStoresChangeMemory := by
  intro i s t hi h a
  cases exec_effect h with
  | store p w v b base hs => simp [hi] at hs
  | storeReserved p w v r hs => simp [hi] at hs
  | trap tr => rw [State.takeTrap_mem]
  | advance | result | carryResult | load | loadReserved | reservationLost | jump | link | external | externalLink
  | gate | writeSr | writeCr | moveStatus | returnFromTrap | setTlb => rfl

/-- The carry bit is not the level. -/
theorem State.xBit_setStatusBit_cb (s : State) (c : Bool) : (s.setStatusBit stCb c).xBit = s.xBit := by
  show stBit (setStBit s.st stCb c) stX = stBit s.st stX
  rw [stBit_setStBit _ (by decide) (by decide), if_neg (by decide)]

/-- Settles O57: of the shapes that need no privilege only a trap's and GATE's write the level. -/
theorem privilegeRises : Obligations.PrivilegeRises := by
  intro i s t hx h ht
  cases exec_effect h with
  | trap tr => exact .inl ⟨tr, rfl⟩
  | gate r d => exact .inr ⟨r, d, rfl⟩
  | carryResult c r v =>
    cases hx.symm.trans ((s.xBit_setStatusBit_cb c).symm.trans ht)
  | moveStatus r v hp | returnFromTrap hp | setTlb side l hp =>
    cases hx.symm.trans hp
  | advance | result | load | store | loadReserved | storeReserved | reservationLost | jump | link | external
  | externalLink | writeSr | writeCr =>
    cases hx.symm.trans ht

/-- SR5 to SR7, the TLBs and, but for SHAMT and those a trap saves into, the control registers: what user level
cannot change (60_exceptions.md section 6). -/
structure Confined (s t : State) : Prop where
  sr : ∀ q : SReg, 5 ≤ q.toNat → t.readSr q = s.readSr q
  cr : ∀ c : CReg, c ≠ 2#5 → c ∉ [17#5, 18#5, 19#5, 20#5, 21#5, 22#5] → t.readCr c = s.readCr c
  itlb : t.itlb = s.itlb
  dtlb : t.dtlb = s.dtlb

theorem Confined.of_eq {s t : State} (hsr : t.sr = s.sr) (hcr : t.cr = s.cr) (hitlb : t.itlb = s.itlb)
    (hdtlb : t.dtlb = s.dtlb) : Confined s t :=
  ⟨fun q _ => State.readSr_congr hsr q, fun c _ _ => State.readCr_congr hcr c, hitlb, hdtlb⟩

theorem confined_takeTrap (s : State) (tr : Trap) : Confined s (s.takeTrap tr) where
  sr q _ := State.readSr_takeTrap s tr q
  cr c _ hc := by
    simp only [List.mem_cons, List.not_mem_nil, or_false, not_or] at hc
    obtain ⟨h17, h18, h19, h20, h21, h22⟩ := hc
    simp only [State.readCr_takeTrap, h17, h18, h19, h20, h21, h22, if_false]
  itlb := State.takeTrap_itlb s tr
  dtlb := State.takeTrap_dtlb s tr

theorem confined_writeSr (s : State) {r : SReg} (hr : r.toNat < 5) (v : Word) : Confined s (s.writeSr r v) where
  sr q hq := by
    have hne : q ≠ r := by
      rintro rfl
      omega
    rw [State.readSr_writeSr, if_neg hne]
  cr _ _ _ := rfl
  itlb := rfl
  dtlb := rfl

theorem confined_writeShamt (s : State) (v : Word) : Confined s (s.writeCr 2#5 v) where
  sr _ _ := rfl
  cr c hc _ := by rw [State.readCr_writeCr, if_neg hc]
  itlb := rfl
  dtlb := rfl

/-- At user level every shape is confined: the others need the privilege. -/
theorem Effect.confined {s t : State} {i : Instr} (hx : s.xBit = true) (h : Effect s i t) : Confined s t := by
  cases h with
  | trap tr => exact confined_takeTrap s tr
  | externalLink seg target =>
    have hsr := confined_writeSr s (r := 0#3) (by decide) s.iaSeg
    exact ⟨hsr.sr, hsr.cr, rfl, rfl⟩
  | writeSr sr v hp =>
    have hsr := confined_writeSr s (hp.resolve_left (by simp [hx])) v
    exact ⟨hsr.sr, hsr.cr, rfl, rfl⟩
  | writeCr cr v hp =>
    obtain rfl := hp.resolve_left (by simp [hx])
    have hcr := confined_writeShamt s v
    exact ⟨hcr.sr, hcr.cr, rfl, rfl⟩
  | moveStatus r v hp | returnFromTrap hp | setTlb side l hp =>
    cases hx.symm.trans hp
  | advance | result | carryResult | load | store | loadReserved | storeReserved | reservationLost | jump | link
  | external | gate => exact .of_eq rfl rfl rfl rfl

/-- Settles O56. -/
theorem userModeConfined : Obligations.UserModeConfined := by
  intro i s t hx h
  obtain ⟨hsr, hcr, hitlb, hdtlb⟩ := (exec_effect h).confined hx
  exact ⟨hsr, hcr, hitlb, hdtlb⟩

/-- A fetch changes nothing but the level, which it can lower (60_exceptions.md R296). -/
theorem fetch_ok {s t : State} {w : Word} (h : s.fetch = .ok (w, t)) : t = s ∨ t = s.setStatusBit stX true := by
  have haddr : ∀ p u, s.fetchAddr = .ok (p, u) → u = s ∨ u = s.setStatusBit stX true := by
    intro p u hu
    unfold State.fetchAddr at hu
    split at hu
    · cases hu; exact .inl rfl
    · split at hu
      · cases hu; exact .inl rfl
      · split at hu
        · cases hu
        · rename_i e _
          unfold State.fetchEntry at hu
          split at hu
          · cases hu
          · split at hu
            · cases hu
            · split at hu
              · cases hu
              · simp only [Except.ok.injEq, Prod.mk.injEq] at hu
                obtain ⟨-, rfl⟩ := hu
                split
                · exact .inr rfl
                · exact .inl rfl
  unfold State.fetch at h
  split at h
  · cases h
  · rename_i p u hu
    split at h
    · cases h
    · cases h
      exact haddr p _ hu

/-- A word that is no instruction has no next state but that of a trap. -/
theorem rejected_next {s t : State} {w : Word} {e : Reject} (h : rejected w e s = .next t) :
    ∃ tr, t = s.takeTrap tr := by
  have htrap : ∀ id, conclude s (raiseInstr id w) = .next t → ∃ tr, t = s.takeTrap tr := by
    intro id h
    cases h
    exact ⟨_, rfl⟩
  cases e with
  | unassignedOpcode | undefinedForm => exact htrap _ h
  | undefinedMstMode =>
    unfold rejected at h
    dsimp only at h
    split at h
    · exact htrap _ h
    · exact htrap _ h
  | reservedExtended =>
    unfold rejected at h
    dsimp only at h
    split at h
    · cases h
    · exact htrap _ h
  | reservedField | truncated => cases h

/-- What one step can do: a trap in the state it started in, or the effect of an instruction in the state the fetch
gave. -/
theorem step_effect {s t : State} (h : step s = .next t) :
    ∃ u i, (u = s ∨ u = s.setStatusBit stX true) ∧ Effect u i t := by
  unfold step at h
  split at h
  · cases h
    exact ⟨s, .rfi, .inl rfl, .trap _⟩
  · split at h
    · exact ⟨s, .rfi, .inl rfl, effect_conclude h (fun _ hu => by cases hu)⟩
    · rename_i w u hu
      split at h
      · rename_i i _
        exact ⟨u, i, fetch_ok hu, exec_effect h⟩
      · obtain ⟨tr, rfl⟩ := rejected_next h
        exact ⟨u, .rfi, fetch_ok hu, .trap _⟩

/-- The two rightmost bits masked away are zero. -/
theorem and_mask_aligned (v : Word) : v &&& 0xFFFFFFFC#32 &&& 3#32 = 0#32 := by
  rw [BitVec.and_assoc]
  exact BitVec.and_zero

/-- SHAMT after a write to a control register: five bits of the word, or as before. -/
theorem cr_two_writeCr (s : State) (c : CReg) (v : Word) :
    (s.writeCr c v).cr[2] = if c = 2#5 then v &&& 0x1F#32 else s.cr[2] := by
  by_cases hc : c = 2#5
  · subst hc
    simp [State.writeCr, crKeep]
  · have hne : ¬ c.toNat = 2 := fun h => hc (BitVec.eq_of_toNat_eq h)
    simp only [State.writeCr, hc, if_false]
    exact Vector.getElem_set_ne (h := hne) ..

theorem cr_two_writeCrOpt (s : State) {c : CReg} (hc : c ≠ 2#5) (v : Option Word) :
    (s.writeCrOpt c v).cr[2] = s.cr[2] := by
  cases v with
  | none => rfl
  | some w => exact (cr_two_writeCr s c w).trans (if_neg hc)

/-- A trap does not save into SHAMT. -/
theorem cr_two_takeTrap (s : State) (tr : Trap) : (s.takeTrap tr).cr[2] = s.cr[2] := by
  simp only [State.takeTrap, State.setIaOfs_cr, State.setIaSeg_cr, State.setSt_cr]
  rw [cr_two_writeCrOpt _ (by decide), cr_two_writeCrOpt _ (by decide), cr_two_writeCrOpt _ (by decide),
    cr_two_writeCr, cr_two_writeCr, cr_two_writeCr]
  rfl

theorem State.Sound.takeTrap {s : State} (h : s.Sound) (tr : Trap) : (s.takeTrap tr).Sound where
  iaOfs_aligned := by rw [State.takeTrap_iaOfs, and_mask_aligned]
  mem_wf := by rw [State.takeTrap_mem]; exact h.mem_wf
  pdc_rising := by rw [State.takeTrap_pdcWords]; exact h.pdc_rising
  itlb_rising := by rw [State.takeTrap_itlb]; exact h.itlb_rising
  dtlb_rising := by rw [State.takeTrap_dtlb]; exact h.dtlb_rising
  dcache_rising := by rw [State.takeTrap_dcache]; exact h.dcache_rising
  icache_rising := by rw [State.takeTrap_icache]; exact h.icache_rising
  shamt_five_bits := by rw [cr_two_takeTrap]; exact h.shamt_five_bits

/-- RAM ends below the end of the address space by more than a word. -/
theorem State.Sound.storeBytes {s : State} (h : s.Sound) {p : Word} (hp : Writable p) (w : Width) (v : Word) :
    (s.storeBytes p w v).Sound where
  iaOfs_aligned := h.iaOfs_aligned
  mem_wf := by
    have hp' : p.toNat < 0xF0000000 := hp
    exact Memory.write_wf h.mem_wf w (by cases w <;> simp only [accessBytes] <;> omega) v
  pdc_rising := h.pdc_rising
  itlb_rising := h.itlb_rising
  dtlb_rising := h.dtlb_rising
  dcache_rising := h.dcache_rising
  icache_rising := h.icache_rising
  shamt_five_bits := h.shamt_five_bits

theorem State.Sound.setTlb {s : State} (h : s.Sound) (side : TlbSide) {l : List TlbEntry}
    (hl : Rising entryKey (s.tlb side) → Rising entryKey l) : (s.setTlb side l).Sound :=
  match side with
  | .instr => { h with itlb_rising := hl h.itlb_rising, dtlb_rising := h.dtlb_rising }
  | .data => { h with itlb_rising := h.itlb_rising, dtlb_rising := hl h.dtlb_rising }

/-- Every shape keeps the invariant. -/
theorem Effect.sound {s t : State} {i : Instr} (hs : s.Sound) (h : Effect s i t) : t.Sound := by
  cases h with
  | trap tr => exact hs.takeTrap tr
  | store p w v b base _ hp => exact { hs.storeBytes hp w v with iaOfs_aligned := and_mask_aligned _ }
  | storeReserved p w v r _ hp => exact { hs.storeBytes hp w v with iaOfs_aligned := and_mask_aligned _ }
  | setTlb side l _ hl => exact { hs.setTlb side hl with iaOfs_aligned := and_mask_aligned _ }
  | writeCr cr v =>
    refine { hs with iaOfs_aligned := and_mask_aligned _, shamt_five_bits := ?_ }
    rw [State.advance_cr, cr_two_writeCr]
    split
    · rw [BitVec.and_assoc, BitVec.and_self]
    · exact hs.shamt_five_bits
  | advance | result | carryResult | load | loadReserved | reservationLost | jump | link | external | externalLink
  | gate | writeSr | moveStatus | returnFromTrap => exact { hs with iaOfs_aligned := and_mask_aligned _ }

/-- Settles O3: the fetch keeps the invariant, and so does the effect of every instruction. -/
theorem stepKeepsSound : Obligations.StepKeepsSound := by
  intro s t hs h
  obtain ⟨u, i, hu, heffect⟩ := step_effect h
  refine heffect.sound ?_
  rcases hu with rfl | rfl
  · exact hs
  · exact { hs with }

end Sys2Proof.Machine

/-! PROOFS. The encoding (30_encoding.md): a word is its fields side by side, so a word that decodes is the word of its
instruction; and a field is read back where it was put, so the word of an instruction decodes to it. -/

namespace Sys2Proof

/-- Two fields side by side are one field. -/
theorem fld_eq_append (w : Word) (i n m : Nat) (h : i + n + m ≤ 32) :
    fld w i (n + m) = fld w i n ++ fld w (i + n) m := by
  apply BitVec.eq_of_getLsbD_eq
  intro k hk
  simp only [fld, BitVec.getLsbD_append, BitVec.getLsbD_extractLsb']
  rcases Nat.lt_or_ge k m with hright | hleft
  · simp [hk, hright, show 32 - i - (n + m) + k = 32 - (i + n) - m + k by omega]
  · simp [hk, show ¬ k < m by omega, show k - m < n by omega,
      show 32 - i - (n + m) + k = 32 - i - n + (k - m) by omega]

theorem put_fld_append (w : Word) (i n m : Nat) (h : i + n + m ≤ 32) :
    put i (fld w i (n + m)) = put i (fld w i n) ||| put (i + n) (fld w (i + n) m) := by
  rw [fld_eq_append w i n m h, put_append i _ _ h]

/-- The bit i of a word, put back, is a field of one bit. -/
@[simp] theorem putBit_bit (w : Word) (i : Nat) : putBit i (bit w i) = put i (fld w i 1) := by
  unfold putBit
  congr 1
  apply BitVec.eq_of_getLsbD_eq
  intro k hk
  obtain rfl : k = 0 := by omega
  simp [fld, bit, show 32 - i - 1 = 31 - i by omega]

/-- The fields of a word from bit i on, of the widths listed, each put back at its place. -/
@[simp] def regather (w : Word) : Nat → List Nat → Word → Word
  | _, [], acc => acc
  | i, n :: ns, acc => regather w (i + n) ns (acc ||| put i (fld w i n))

theorem regather_eq (w : Word) (i : Nat) (ns : List Nat) (acc : Word) (h : i + ns.sum ≤ 32) :
    regather w i ns acc = acc ||| put i (fld w i ns.sum) := by
  induction ns generalizing i acc with
  | nil =>
    have hnil : put i (fld w i [].sum) = 0#32 := (congrArg (put i) (BitVec.eq_nil _)).trans (put_zero i 0)
    rw [regather, hnil, BitVec.or_zero]
  | cons n ns ih =>
    rw [List.sum_cons] at h
    rw [regather, ih _ _ (by omega), List.sum_cons, put_fld_append w i n ns.sum (by omega), BitVec.or_assoc]

/-- A word is its opcode and its fields, of any widths that fill it. -/
theorem regather_word (w : Word) (ns : List Nat) (h : 6 + ns.sum = 32) :
    regather w 6 ns (put 0 (fld w 0 6)) = w := by
  rw [regather_eq w 6 ns _ (by omega), ← put_fld_append w 0 6 ns.sum (by omega), h, put_eq_cast _ rfl]
  apply BitVec.eq_of_getLsbD_eq
  intro k hk
  simp [fld, hk]

/-- The word `w` is the one the instruction `i` is encoded by, and `i` is well formed. -/
def IsWordOf (w : Word) (i : Instr) : Prop := i.wf = true ∧ encode i = w

/-- A decoding that is rejected unless n bits are zero is the one it would be, and they are. -/
theorem ifZeroElse_ok {why : Reject} {w : Word} {i n : Nat} {r : Except Reject Instr} {j : Instr}
    (h : ifZeroElse why w i n r = .ok j) : fld w i n = 0#n ∧ r = .ok j := by
  rw [ifZeroElse_eq] at h
  split at h
  · exact ⟨‹_›, h⟩
  · cases h

theorem ifZero_ok {w : Word} {i n : Nat} {r : Except Reject Instr} {j : Instr} (h : ifZero w i n r = .ok j) :
    fld w i n = 0#n ∧ r = .ok j :=
  ifZeroElse_ok h

theorem decodeWidth_ok {w : Word} {b h wd : Except Reject Instr} {j : Instr} (hj : decodeWidth w b h wd = .ok j) :
    (fld w 14 2 = 0#2 ∧ b = .ok j) ∨ (fld w 14 2 = 1#2 ∧ h = .ok j) ∨ (fld w 14 2 = 2#2 ∧ wd = .ok j) := by
  unfold decodeWidth at hj
  split at hj
  · exact .inl ⟨‹_›, hj⟩
  · exact .inr (.inl ⟨‹_›, hj⟩)
  · exact .inr (.inr ⟨‹_›, hj⟩)
  · cases hj

/-- A bit is a field of one bit. -/
theorem fld_one_eq_ofBool (w : Word) (i : Nat) : fld w i 1 = BitVec.ofBool (bit w i) := by
  apply BitVec.eq_of_getLsbD_eq
  intro k hk
  obtain rfl : k = 0 := by omega
  simp [fld, bit, show 32 - i - 1 = 31 - i by omega]

theorem fld_eq_one_of_bit {w : Word} {i : Nat} (h : bit w i = true) : fld w i 1 = 1#1 := by
  rw [fld_one_eq_ofBool, h]
  rfl

theorem fld_eq_zero_of_bit {w : Word} {i : Nat} (h : ¬ bit w i = true) : fld w i 1 = 0#1 := by
  rw [fld_one_eq_ofBool, Bool.eq_false_iff.mpr h]
  rfl

theorem eq_three_of_ne (v : BitVec 2) (h0 : v ≠ 0#2) (h1 : v ≠ 1#2) (h2 : v ≠ 2#2) : v = 3#2 := by
  decide +revert

/-- A segment register field with its reserved bit clear is the three bits to the right of that (30_encoding.md
R122). -/
theorem put_segReg (x : BitVec 3) : put 24 (x.setWidth 4) = put 25 x := by
  decide +revert

theorem put_segRegField (w : Word) : put 24 (segRegField w) = put 25 (fld w 25 3) := put_segReg (fld w 25 3)

theorem segRegFieldOk_setWidth (x : BitVec 3) : segRegFieldOk (x.setWidth 4) = true := by
  decide +revert

open Machine (Operand ArithOp LogicOp arithInstr logicInstr compareInstr)

/-- The bits 12 to 31 of a word in an operand form (30_encoding.md R102). -/
def Machine.Operand.bits : Operand → Word
  | .imm val => put 14 val
  | .reg a b => put 12 1#2 ||| put 24 a ||| put 28 b
  | .idx dw a b => put 12 2#2 ||| put 14 dw ||| put 24 a ||| put 28 b
  | .ofs dw d b => put 12 3#2 ||| put 14 dw ||| put 16 d ||| put 28 b

/-- The opcode of an arithmetic operation (30_encoding.md R120). -/
def Machine.ArithOp.opcode : ArithOp → BitVec 6
  | .add => 0x10#6
  | .addc => 0x11#6
  | .sub => 0x12#6
  | .subc => 0x13#6

/-- The opcode of a logical operation (30_encoding.md R120). -/
def Machine.LogicOp.opcode : LogicOp → BitVec 6
  | .and => 0x14#6
  | .or => 0x15#6
  | .xor => 0x16#6

/-- The opcode of CMP and of CMPU (30_encoding.md R120). -/
def compareOpcode (signed : Bool) : BitVec 6 := if signed then 0x17#6 else 0x18#6

theorem encode_arithInstr (op : ArithOp) (r : GReg) (o l : Bool) (x : Operand) :
    encode (arithInstr op r o l x) = put 0 op.opcode ||| put 6 r ||| putBit 10 o ||| putBit 11 l ||| x.bits := by
  cases op <;> cases x <;> simp only [arithInstr, encode, Operand.bits, ArithOp.opcode, BitVec.or_assoc]

theorem encode_logicInstr (op : LogicOp) (r : GReg) (n c : Bool) (x : Operand) :
    encode (logicInstr op r n c x) = put 0 op.opcode ||| put 6 r ||| putBit 10 n ||| putBit 11 c ||| x.bits := by
  cases op <;> cases x <;> simp only [logicInstr, encode, Operand.bits, LogicOp.opcode, BitVec.or_assoc]

theorem encode_compareInstr (signed : Bool) (r : GReg) (cond : BitVec 2) (x : Operand) :
    encode (compareInstr signed r cond x) = put 0 (compareOpcode signed) ||| put 6 r ||| put 10 cond ||| x.bits := by
  cases signed <;> cases x <;> simp only [compareInstr, encode, Operand.bits, compareOpcode, BitVec.or_assoc] <;> rfl

theorem wf_arithInstr (op : ArithOp) (r : GReg) (o l : Bool) (x : Operand) : (arithInstr op r o l x).wf = true := by
  cases op <;> cases x <;> rfl

theorem wf_logicInstr (op : LogicOp) (r : GReg) (n c : Bool) (x : Operand) : (logicInstr op r n c x).wf = true := by
  cases op <;> cases x <;> rfl

theorem wf_compareInstr (signed : Bool) (r : GReg) (cond : BitVec 2) (x : Operand) :
    (compareInstr signed r cond x).wf = true := by
  cases signed <;> cases x <;> rfl

/-- The operand a word has, with the bits it has it in. -/
theorem decodeOperand_ok {w : Word} {i : Instr} (f : Operand → Instr)
    (h : decodeOperand w (fun v => f (.imm v)) (fun a b => f (.reg a b)) (fun dw a b => f (.idx dw a b))
      (fun dw d b => f (.ofs dw d b)) = .ok i) :
    ∃ x, i = f x ∧ x.bits = put 12 (fld w 12 20) := by
  have hw := fun ns => regather_eq w 12 ns 0#32
  unfold decodeOperand at h
  split at h
  · refine ⟨_, (Except.ok.inj h).symm, ?_⟩
    simpa [Operand.bits, put_zero, *] using hw [2, 18] (by decide)
  · obtain ⟨hz, h⟩ := ifZero_ok h
    refine ⟨_, (Except.ok.inj h).symm, ?_⟩
    simpa [Operand.bits, put_zero, *] using hw [2, 10, 4, 4] (by decide)
  · split at h
    · cases h
    · obtain ⟨hz, h⟩ := ifZero_ok h
      refine ⟨_, (Except.ok.inj h).symm, ?_⟩
      simpa [Operand.bits, put_zero, *] using hw [2, 2, 8, 4, 4] (by decide)
  · have hmode := eq_three_of_ne (fld w 12 2) ‹_› ‹_› ‹_›
    refine ⟨_, (Except.ok.inj h).symm, ?_⟩
    simpa [Operand.bits, put_zero, hmode] using hw [2, 2, 12, 4] (by decide)

theorem isWordOf_arith {w : Word} {i : Instr} (op : ArithOp) (hop : fld w 0 6 = op.opcode)
    (h : decodeOperand w (fun v => arithInstr op (fld w 6 4) (bit w 10) (bit w 11) (.imm v))
      (fun a b => arithInstr op (fld w 6 4) (bit w 10) (bit w 11) (.reg a b))
      (fun dw a b => arithInstr op (fld w 6 4) (bit w 10) (bit w 11) (.idx dw a b))
      (fun dw d b => arithInstr op (fld w 6 4) (bit w 10) (bit w 11) (.ofs dw d b)) = .ok i) : IsWordOf w i := by
  obtain ⟨x, rfl, hx⟩ := decodeOperand_ok (arithInstr op (fld w 6 4) (bit w 10) (bit w 11)) h
  refine ⟨wf_arithInstr .., ?_⟩
  rw [encode_arithInstr, hx, putBit_bit, putBit_bit, ← hop]
  exact regather_word w [4, 1, 1, 20] rfl

theorem isWordOf_logic {w : Word} {i : Instr} (op : LogicOp) (hop : fld w 0 6 = op.opcode)
    (h : decodeOperand w (fun v => logicInstr op (fld w 6 4) (bit w 10) (bit w 11) (.imm v))
      (fun a b => logicInstr op (fld w 6 4) (bit w 10) (bit w 11) (.reg a b))
      (fun dw a b => logicInstr op (fld w 6 4) (bit w 10) (bit w 11) (.idx dw a b))
      (fun dw d b => logicInstr op (fld w 6 4) (bit w 10) (bit w 11) (.ofs dw d b)) = .ok i) : IsWordOf w i := by
  obtain ⟨x, rfl, hx⟩ := decodeOperand_ok (logicInstr op (fld w 6 4) (bit w 10) (bit w 11)) h
  refine ⟨wf_logicInstr .., ?_⟩
  rw [encode_logicInstr, hx, putBit_bit, putBit_bit, ← hop]
  exact regather_word w [4, 1, 1, 20] rfl

theorem isWordOf_compare {w : Word} {i : Instr} (signed : Bool) (hop : fld w 0 6 = compareOpcode signed)
    (h : decodeOperand w (fun v => compareInstr signed (fld w 6 4) (fld w 10 2) (.imm v))
      (fun a b => compareInstr signed (fld w 6 4) (fld w 10 2) (.reg a b))
      (fun dw a b => compareInstr signed (fld w 6 4) (fld w 10 2) (.idx dw a b))
      (fun dw d b => compareInstr signed (fld w 6 4) (fld w 10 2) (.ofs dw d b)) = .ok i) : IsWordOf w i := by
  obtain ⟨x, rfl, hx⟩ := decodeOperand_ok (compareInstr signed (fld w 6 4) (fld w 10 2)) h
  refine ⟨wf_compareInstr .., ?_⟩
  rw [encode_compareInstr, hx, ← hop]
  exact regather_word w [4, 2, 20] rfl

theorem isWordOf_ldo {w : Word} {i : Instr} (hop : fld w 0 6 = Config.opcLdo) (h : decodeLdo w = .ok i) :
    IsWordOf w i := by
  rw [opcLdo_eq] at hop
  unfold decodeLdo at h
  split at h
  · obtain ⟨hz, h⟩ := ifZero_ok h
    cases h
    exact ⟨rfl, by simpa [encode, put_zero, *] using regather_word w [4, 2, 2, 18] rfl⟩
  · obtain ⟨hz, h⟩ := ifZero_ok h
    obtain ⟨hz', h⟩ := ifZero_ok h
    cases h
    exact ⟨rfl, by simpa [encode, put_zero, *] using regather_word w [4, 2, 2, 2, 8, 4, 4] rfl⟩
  · obtain ⟨hz, h⟩ := ifZero_ok h
    cases h
    exact ⟨rfl, by simpa [encode, put_zero, *] using regather_word w [4, 2, 2, 2, 12, 4] rfl⟩
  · cases h

theorem isWordOf_dep {w : Word} {i : Instr} (hop : fld w 0 6 = 0x06#6) (h : decodeDep w = .ok i) :
    IsWordOf w i := by
  obtain ⟨hz, h⟩ := ifZero_ok h
  split at h
  · have himm := fld_eq_one_of_bit ‹bit w 12 = true›
    cases h
    exact ⟨rfl, by simpa [encode, put_zero, *] using regather_word w [4, 1, 1, 1, 5, 5, 5, 4] rfl⟩
  · have hreg := fld_eq_zero_of_bit ‹¬ bit w 12 = true›
    cases h
    exact ⟨rfl, by simpa [encode, put_zero, *] using regather_word w [4, 1, 1, 1, 5, 5, 5, 4] rfl⟩

/-- A field with one bit set is that bit. -/
theorem put_ten_one : put 10 1#2 = put 11 1#1 := by decide

theorem put_ten_two : put 10 2#2 = put 10 1#1 := by decide

theorem isWordOf_mr {w : Word} {i : Instr} (hop : fld w 0 6 = 0x0A#6) (h : decodeMr w = .ok i) :
    IsWordOf w i := by
  unfold decodeMr at h
  split at h
  · obtain ⟨hz, h⟩ := ifZero_ok h
    cases h
    exact ⟨rfl, by simpa [encode, put_zero, *] using regather_word w [4, 2, 17, 3] rfl⟩
  · obtain ⟨hz, h⟩ := ifZero_ok h
    cases h
    exact ⟨rfl, by simpa [encode, put_zero, put_ten_one, *] using regather_word w [4, 2, 15, 5] rfl⟩
  · obtain ⟨hz, h⟩ := ifZero_ok h
    cases h
    exact ⟨rfl, by simpa [encode, put_zero, put_ten_two, *] using regather_word w [4, 2, 17, 3] rfl⟩
  · have hmode := eq_three_of_ne (fld w 10 2) ‹_› ‹_› ‹_›
    obtain ⟨hz, h⟩ := ifZero_ok h
    cases h
    exact ⟨rfl, by simpa [encode, put_zero, *] using regather_word w [4, 2, 15, 5] rfl⟩

theorem isWordOf_mst {w : Word} {i : Instr} (hop : fld w 0 6 = 0x0B#6) (h : decodeMst w = .ok i) :
    IsWordOf w i := by
  unfold decodeMst at h
  split at h
  · obtain ⟨hz, h⟩ := ifZero_ok h
    cases h
    exact ⟨rfl, by simpa [encode, put_zero, *] using regather_word w [4, 2, 16, 4] rfl⟩
  · obtain ⟨hz, h⟩ := ifZero_ok h
    cases h
    exact ⟨rfl, by simpa [encode, put_zero, *] using regather_word w [4, 2, 14, 6] rfl⟩
  · obtain ⟨hz, h⟩ := ifZero_ok h
    cases h
    exact ⟨rfl, by simpa [encode, put_zero, *] using regather_word w [4, 2, 14, 6] rfl⟩
  · cases h

theorem isWordOf_ld {w : Word} {i : Instr} (hop : fld w 0 6 = 0x1A#6) (h : decodeLd w = .ok i) :
    IsWordOf w i := by
  unfold decodeLd at h
  dsimp only at h
  split at h
  · rcases decodeWidth_ok h with ⟨hw, h⟩ | ⟨hw, h⟩ | ⟨hw, h⟩
    all_goals
      obtain ⟨hz, h⟩ := ifZero_ok h
      obtain ⟨hz', h⟩ := ifZero_ok h
      cases h
      exact ⟨rfl, by simpa [encode, put_zero, *] using regather_word w [4, 1, 1, 2, 2, 8, 4, 4] rfl⟩
  · rcases decodeWidth_ok h with ⟨hw, h⟩ | ⟨hw, h⟩ | ⟨hw, h⟩
    all_goals
      obtain ⟨hz, h⟩ := ifZero_ok h
      cases h
      exact ⟨rfl, by simpa [encode, put_zero, *] using regather_word w [4, 1, 1, 2, 2, 12, 4] rfl⟩
  · cases h

theorem isWordOf_st {w : Word} {i : Instr} (hop : fld w 0 6 = 0x1B#6) (h : decodeSt w = .ok i) :
    IsWordOf w i := by
  unfold decodeSt at h
  dsimp only at h
  split at h
  · rcases decodeWidth_ok h with ⟨hw, h⟩ | ⟨hw, h⟩ | ⟨hw, h⟩
    all_goals
      obtain ⟨hz, h⟩ := ifZero_ok h
      cases h
      exact ⟨rfl, by simpa [encode, put_zero, *] using regather_word w [4, 1, 1, 2, 2, 12, 4] rfl⟩
  · cases h

theorem isWordOf_ldwr {w : Word} {i : Instr} (hop : fld w 0 6 = 0x1C#6) (h : decodeLdwr w = .ok i) :
    IsWordOf w i := by
  unfold decodeLdwr at h
  split at h
  · obtain ⟨hz, h⟩ := ifZero_ok h
    obtain ⟨hz', h⟩ := ifZero_ok h
    cases h
    exact ⟨rfl, by simpa [encode, put_zero, *] using regather_word w [4, 2, 2, 2, 8, 4, 4] rfl⟩
  · obtain ⟨hz, h⟩ := ifZero_ok h
    cases h
    exact ⟨rfl, by simpa [encode, put_zero, *] using regather_word w [4, 2, 2, 2, 12, 4] rfl⟩
  · cases h

theorem isWordOf_stwc {w : Word} {i : Instr} (hop : fld w 0 6 = 0x1D#6) (h : decodeStwc w = .ok i) :
    IsWordOf w i := by
  unfold decodeStwc at h
  split at h
  · obtain ⟨hz, h⟩ := ifZero_ok h
    cases h
    exact ⟨rfl, by simpa [encode, put_zero, *] using regather_word w [4, 2, 2, 2, 12, 4] rfl⟩
  · cases h

theorem isWordOf_lde {w : Word} {i : Instr} (hop : fld w 0 6 = 0x30#6) (h : decodeLde w = .ok i) :
    IsWordOf w i := by
  unfold decodeLde at h
  dsimp only at h
  split at h
  · have hidx := fld_eq_one_of_bit ‹bit w 10 = true›
    rcases decodeWidth_ok h with ⟨hw, h⟩ | ⟨hw, h⟩ | ⟨hw, h⟩
    all_goals
      obtain ⟨hz, h⟩ := ifZeroElse_ok h
      cases h
      exact ⟨rfl, by simpa [encode, put_zero, *] using regather_word w [4, 1, 1, 2, 2, 8, 4, 4] rfl⟩
  · have hofs := fld_eq_zero_of_bit ‹¬ bit w 10 = true›
    rcases decodeWidth_ok h with ⟨hw, h⟩ | ⟨hw, h⟩ | ⟨hw, h⟩
    all_goals
      cases h
      exact ⟨rfl, by simpa [encode, put_zero, *] using regather_word w [4, 1, 1, 2, 2, 12, 4] rfl⟩

theorem isWordOf_ste {w : Word} {i : Instr} (hop : fld w 0 6 = 0x31#6) (h : decodeSte w = .ok i) :
    IsWordOf w i := by
  unfold decodeSte at h
  dsimp only at h
  split at h
  · cases h
  · have hofs := fld_eq_zero_of_bit ‹¬ bit w 10 = true›
    rcases decodeWidth_ok h with ⟨hw, h⟩ | ⟨hw, h⟩ | ⟨hw, h⟩
    all_goals
      cases h
      exact ⟨rfl, by simpa [encode, put_zero, *] using regather_word w [4, 1, 1, 2, 2, 12, 4] rfl⟩

theorem isWordOf_ldwa {w : Word} {i : Instr} (hop : fld w 0 6 = 0x32#6) (h : decodeLdwa w = .ok i) :
    IsWordOf w i := by
  unfold decodeLdwa at h
  split at h
  · have hidx := fld_eq_one_of_bit ‹bit w 10 = true›
    obtain ⟨hz, h⟩ := ifZero_ok h
    cases h
    exact ⟨rfl, by simpa [encode, put_zero, *] using regather_word w [4, 1, 1, 12, 4, 4] rfl⟩
  · have hofs := fld_eq_zero_of_bit ‹¬ bit w 10 = true›
    cases h
    exact ⟨rfl, by simpa [encode, put_zero, *] using regather_word w [4, 1, 1, 16, 4] rfl⟩

theorem isWordOf_stwa {w : Word} {i : Instr} (hop : fld w 0 6 = 0x33#6) (h : decodeStwa w = .ok i) :
    IsWordOf w i := by
  unfold decodeStwa at h
  split at h
  · cases h
  · have hofs := fld_eq_zero_of_bit ‹¬ bit w 10 = true›
    cases h
    exact ⟨rfl, by simpa [encode, put_zero, *] using regather_word w [4, 1, 1, 16, 4] rfl⟩

theorem isWordOf_ldpa {w : Word} {i : Instr} (hop : fld w 0 6 = 0x39#6) (h : decodeLdpa w = .ok i) :
    IsWordOf w i := by
  unfold decodeLdpa at h
  split at h
  · obtain ⟨hz, h⟩ := ifZero_ok h
    obtain ⟨hz', h⟩ := ifZero_ok h
    cases h
    exact ⟨rfl, by simpa [encode, put_zero, *] using regather_word w [4, 2, 2, 2, 8, 4, 4] rfl⟩
  · obtain ⟨hz, h⟩ := ifZero_ok h
    cases h
    exact ⟨rfl, by simpa [encode, put_zero, *] using regather_word w [4, 2, 2, 2, 12, 4] rfl⟩
  · cases h

theorem isWordOf_itlb {w : Word} {i : Instr} (hop : fld w 0 6 = 0x3B#6) (h : decodeItlb w = .ok i) :
    IsWordOf w i := by
  obtain ⟨hz, h⟩ := ifZero_ok h
  split at h
  · have hprot := fld_eq_one_of_bit ‹bit w 11 = true›
    cases h
    exact ⟨segRegFieldOk_setWidth _, by
      simpa [encode, put_zero, put_segRegField, *] using regather_word w [4, 1, 1, 13, 3, 4] rfl⟩
  · have haddr := fld_eq_zero_of_bit ‹¬ bit w 11 = true›
    cases h
    exact ⟨segRegFieldOk_setWidth _, by
      simpa [encode, put_zero, put_segRegField, *] using regather_word w [4, 1, 1, 13, 3, 4] rfl⟩

/-- The eight conditions of CMR are one format. -/
theorem decodeCmr_eq (w : Word) :
    decodeCmr w = ifZero w 13 11 (.ok (Machine.cmrInstr (fld w 10 3) (fld w 6 4) (fld w 24 4) (fld w 28 4))) := rfl

/-- The eight conditions of CBR are one format. -/
theorem decodeCbr_eq (w : Word) :
    decodeCbr w = Machine.cbrInstr (fld w 6 3) (fld w 9 15) (fld w 24 4) (fld w 28 4) := rfl

theorem wf_cmrInstr (cond : BitVec 3) (r a b : GReg) : (Machine.cmrInstr cond r a b).wf = true := by
  rcases Machine.condition_cases cond with rfl | rfl | rfl | rfl | rfl | rfl | rfl | rfl <;> rfl

theorem wf_cbrInstr (cond : BitVec 3) (d : BitVec 15) (a b : GReg) : (Machine.cbrInstr cond d a b).wf = true := by
  rcases Machine.condition_cases cond with rfl | rfl | rfl | rfl | rfl | rfl | rfl | rfl <;> rfl

theorem isWordOf_cmr {w : Word} {i : Instr} (hop : fld w 0 6 = 0x09#6) (h : decodeCmr w = .ok i) :
    IsWordOf w i := by
  rw [decodeCmr_eq] at h
  obtain ⟨hz, h⟩ := ifZero_ok h
  cases h
  exact ⟨wf_cmrInstr .., by
    simpa [Machine.encode_cmrInstr_eq_put, put_zero, *] using regather_word w [4, 3, 11, 4, 4] rfl⟩

theorem isWordOf_cbr {w : Word} (hop : fld w 0 6 = 0x27#6) : IsWordOf w (decodeCbr w) := by
  rw [decodeCbr_eq]
  exact ⟨wf_cbrInstr .., by
    simpa [Machine.encode_cbrInstr_eq_put, *] using regather_word w [3, 15, 4, 4] rfl⟩

/-- Settles O5: the word of what an opcode's decoder gives, opcode by opcode. -/
theorem encodeDecode : Obligations.EncodeDecode := by
  intro w i h
  show IsWordOf w i
  unfold decodeWord at h
  dsimp only at h
  split at h <;> rename_i hop
  · obtain ⟨hz, h⟩ := ifZero_ok h
    cases h
    exact ⟨rfl, by simpa [encode, put_zero, *] using regather_word w [4, 6, 16] rfl⟩
  · cases h
    exact ⟨rfl, by simpa [encode, put_zero, *] using regather_word w [4, 22] rfl⟩
  · cases h
    exact ⟨rfl, by simpa [encode, put_zero, *] using regather_word w [4, 22] rfl⟩
  · obtain ⟨hz, h⟩ := ifZero_ok h
    cases h
    exact ⟨rfl, by simpa [encode, put_zero, *] using regather_word w [4, 18, 4] rfl⟩
  · obtain ⟨hz, h⟩ := ifZero_ok h
    cases h
    exact ⟨rfl, by simpa [encode, put_zero, *] using regather_word w [4, 1, 1, 6, 5, 5, 4] rfl⟩
  · exact isWordOf_dep hop h
  · obtain ⟨hz, h⟩ := ifZero_ok h
    obtain ⟨hz', h⟩ := ifZero_ok h
    cases h
    exact ⟨rfl, by simpa [encode, put_zero, *] using regather_word w [4, 1, 1, 7, 5, 4, 4] rfl⟩
  · obtain ⟨hz, h⟩ := ifZero_ok h
    cases h
    exact ⟨rfl, by simpa [encode, put_zero, *] using regather_word w [4, 1, 1, 10, 2, 4, 4] rfl⟩
  · exact isWordOf_cmr hop h
  · exact isWordOf_mr hop h
  · exact isWordOf_mst hop h
  · exact isWordOf_arith .add hop h
  · exact isWordOf_arith .addc hop h
  · exact isWordOf_arith .sub hop h
  · exact isWordOf_arith .subc hop h
  · exact isWordOf_logic .and hop h
  · exact isWordOf_logic .or hop h
  · exact isWordOf_logic .xor hop h
  · exact isWordOf_compare true hop h
  · exact isWordOf_compare false hop h
  · exact isWordOf_ld hop h
  · exact isWordOf_st hop h
  · exact isWordOf_ldwr hop h
  · exact isWordOf_stwc hop h
  · cases h
    exact ⟨rfl, by simpa [encode, put_zero, *] using regather_word w [4, 22] rfl⟩
  · cases h
    exact ⟨rfl, by simpa [encode, put_zero, *] using regather_word w [4, 22] rfl⟩
  · obtain ⟨hz, h⟩ := ifZero_ok h
    cases h
    exact ⟨rfl, by simpa [encode, put_zero, *] using regather_word w [4, 18, 4] rfl⟩
  · obtain ⟨hz, h⟩ := ifZero_ok h
    cases h
    exact ⟨rfl, by simpa [encode, put_zero, *] using regather_word w [18, 4, 4] rfl⟩
  · obtain ⟨hz, h⟩ := ifZero_ok h
    cases h
    exact ⟨segRegFieldOk_setWidth _, by
      simpa [encode, put_zero, put_segRegField, *] using regather_word w [18, 1, 3, 4] rfl⟩
  · obtain ⟨hz, h⟩ := ifZero_ok h
    cases h
    exact ⟨segRegFieldOk_setWidth _, by
      simpa [encode, put_zero, put_segRegField, *] using regather_word w [18, 1, 3, 4] rfl⟩
  · obtain ⟨hz, h⟩ := ifZero_ok h
    cases h
    exact ⟨rfl, by simpa [encode, put_zero, *] using regather_word w [18, 4, 4] rfl⟩
  · cases h
    exact isWordOf_cbr hop
  · exact isWordOf_lde hop h
  · exact isWordOf_ste hop h
  · exact isWordOf_ldwa hop h
  · exact isWordOf_stwa hop h
  · exact isWordOf_ldpa hop h
  · obtain ⟨hz, h⟩ := ifZero_ok h
    obtain ⟨hz', h⟩ := ifZero_ok h
    cases h
    exact ⟨rfl, by simpa [encode, put_zero, *] using regather_word w [4, 1, 1, 1, 1, 2, 8, 4, 4] rfl⟩
  · exact isWordOf_itlb hop h
  · obtain ⟨hz, h⟩ := ifZero_ok h
    obtain ⟨hz', h⟩ := ifZero_ok h
    cases h
    exact ⟨segRegFieldOk_setWidth _, by
      simpa [encode, put_zero, put_segRegField, *] using regather_word w [4, 1, 14, 3, 4] rfl⟩
  · obtain ⟨hz, h⟩ := ifZero_ok h
    obtain ⟨hz', h⟩ := ifZero_ok h
    cases h
    exact ⟨segRegFieldOk_setWidth _, by
      simpa [encode, put_zero, put_segRegField, *] using regather_word w [4, 1, 1, 13, 3, 4] rfl⟩
  · obtain ⟨hz, h⟩ := ifZero_ok h
    cases h
    exact ⟨rfl, by simpa [encode, put_zero, *] using regather_word w [4, 14, 4, 4] rfl⟩
  · obtain ⟨hz, h⟩ := ifZero_ok h
    cases h
    exact ⟨rfl, by simpa [encode, put_zero, *] using regather_word w [26] rfl⟩
  · split at h
    · exact isWordOf_ldo ‹_› h
    · cases h

end Sys2Proof

/-! PROOFS. The word of a well-formed instruction decodes to it: the operand forms and the conditions as families, the
formats with a segment register field by its three bits, the others by reading each field where it was put. -/

namespace Sys2Proof

open Machine (Operand ArithOp LogicOp arithInstr logicInstr compareInstr cmrInstr cbrInstr)

theorem bit_put_ofBool {i : Nat} (h : i < 32) (v : Bool) : bit (put i (BitVec.ofBool v)) i = v := bit_putBit h v

theorem bit_put_one {i : Nat} (h : i < 32) : bit (put i 1#1) i = true := bit_putBit h true

/-- A well-formed segment register field is three bits. -/
theorem exists_segReg {sreg : BitVec 4} (h : segRegFieldOk sreg = true) : ∃ x : BitVec 3, sreg = x.setWidth 4 := by
  refine ⟨sreg.setWidth 3, ?_⟩
  decide +revert

/-- The operand form is read from the bits of the operand, where the rest of the word leaves bits 12 to 31 clear. -/
theorem decodeOperand_bits (f : Operand → Instr) (x : Operand) {hd : Word}
    (hhd : ∀ i n, 12 ≤ i → i + n ≤ 32 → fld hd i n = 0#n) :
    decodeOperand (hd ||| x.bits) (fun v => f (.imm v)) (fun a b => f (.reg a b)) (fun dw a b => f (.idx dw a b))
      (fun dw d b => f (.ofs dw d b)) = .ok (f x) := by
  cases x with
  | imm | reg | ofs =>
    simp (disch := decide) only [decodeOperand, Operand.bits, fld_or, hhd, fld_put, fld_put_of_disjoint, BitVec.or_zero,
      BitVec.zero_or, ifZero_eq, if_true]
  | idx dw a b =>
    have hform : ¬ (dw = 3#2 ∧ 0#8 ≠ 0#8) := fun h => h.2 rfl
    simp (disch := decide) only [decodeOperand, Operand.bits, fld_or, hhd, fld_put, fld_put_of_disjoint, BitVec.or_zero,
      BitVec.zero_or, ifZero_eq, if_true]
    exact if_neg hform

theorem decodeWord_arith (op : ArithOp) {w : Word} (hop : fld w 0 6 = op.opcode) :
    decodeWord w = decodeOperand w (fun v => arithInstr op (fld w 6 4) (bit w 10) (bit w 11) (.imm v))
      (fun a b => arithInstr op (fld w 6 4) (bit w 10) (bit w 11) (.reg a b))
      (fun dw a b => arithInstr op (fld w 6 4) (bit w 10) (bit w 11) (.idx dw a b))
      (fun dw d b => arithInstr op (fld w 6 4) (bit w 10) (bit w 11) (.ofs dw d b)) := by
  cases op <;> simp only [decodeWord, hop, ArithOp.opcode] <;> rfl

theorem decodeWord_logic (op : LogicOp) {w : Word} (hop : fld w 0 6 = op.opcode) :
    decodeWord w = decodeOperand w (fun v => logicInstr op (fld w 6 4) (bit w 10) (bit w 11) (.imm v))
      (fun a b => logicInstr op (fld w 6 4) (bit w 10) (bit w 11) (.reg a b))
      (fun dw a b => logicInstr op (fld w 6 4) (bit w 10) (bit w 11) (.idx dw a b))
      (fun dw d b => logicInstr op (fld w 6 4) (bit w 10) (bit w 11) (.ofs dw d b)) := by
  cases op <;> simp only [decodeWord, hop, LogicOp.opcode] <;> rfl

theorem decodeWord_compare (signed : Bool) {w : Word} (hop : fld w 0 6 = compareOpcode signed) :
    decodeWord w = decodeOperand w (fun v => compareInstr signed (fld w 6 4) (fld w 10 2) (.imm v))
      (fun a b => compareInstr signed (fld w 6 4) (fld w 10 2) (.reg a b))
      (fun dw a b => compareInstr signed (fld w 6 4) (fld w 10 2) (.idx dw a b))
      (fun dw d b => compareInstr signed (fld w 6 4) (fld w 10 2) (.ofs dw d b)) := by
  cases signed <;> simp only [compareOpcode, if_true, if_false, Bool.false_eq_true] at hop <;>
    simp only [decodeWord, hop] <;> rfl

/-- The bits of an operand leave a field to their left as it is. -/
theorem fld_bits_left (x : Operand) {i n : Nat} (h : i + n ≤ 12) : fld x.bits i n = 0#n := by
  cases x <;> simp (disch := omega) only [Operand.bits, fld_or, fld_put_of_disjoint, BitVec.or_zero]

theorem bit_bits_left (x : Operand) {i : Nat} (h : i < 12) : bit x.bits i = false := by
  cases x <;> simp (disch := omega) only [Operand.bits, bit_or, bit_put_of_disjoint, Bool.or_false]

theorem decodeWord_encode_arith (op : ArithOp) (r : GReg) (o l : Bool) (x : Operand) :
    decodeWord (encode (arithInstr op r o l x)) = .ok (arithInstr op r o l x) := by
  rw [encode_arithInstr, decodeWord_arith op]
  · simp (disch := omega) only [putBit, fld_or, bit_or, fld_put, fld_put_of_disjoint, bit_put_ofBool, bit_put_of_disjoint,
      fld_bits_left, bit_bits_left, BitVec.or_zero, BitVec.zero_or, Bool.or_false, Bool.false_or]
    exact decodeOperand_bits (arithInstr op r o l) x (fun i n hi hn => by
      simp (disch := omega) only [fld_or, fld_put_of_disjoint, BitVec.or_zero])
  · simp (disch := omega) only [putBit, fld_or, fld_put, fld_put_of_disjoint, fld_bits_left, BitVec.or_zero]

theorem decodeWord_encode_logic (op : LogicOp) (r : GReg) (n c : Bool) (x : Operand) :
    decodeWord (encode (logicInstr op r n c x)) = .ok (logicInstr op r n c x) := by
  rw [encode_logicInstr, decodeWord_logic op]
  · simp (disch := omega) only [putBit, fld_or, bit_or, fld_put, fld_put_of_disjoint, bit_put_ofBool, bit_put_of_disjoint,
      fld_bits_left, bit_bits_left, BitVec.or_zero, BitVec.zero_or, Bool.or_false, Bool.false_or]
    exact decodeOperand_bits (logicInstr op r n c) x (fun i n hi hn => by
      simp (disch := omega) only [fld_or, fld_put_of_disjoint, BitVec.or_zero])
  · simp (disch := omega) only [putBit, fld_or, fld_put, fld_put_of_disjoint, fld_bits_left, BitVec.or_zero]

theorem decodeWord_encode_compare (signed : Bool) (r : GReg) (cond : BitVec 2) (x : Operand) :
    decodeWord (encode (compareInstr signed r cond x)) = .ok (compareInstr signed r cond x) := by
  rw [encode_compareInstr, decodeWord_compare signed]
  · simp (disch := omega) only [fld_or, fld_put, fld_put_of_disjoint, fld_bits_left, BitVec.or_zero, BitVec.zero_or]
    exact decodeOperand_bits (compareInstr signed r cond) x (fun i n hi hn => by
      simp (disch := omega) only [fld_or, fld_put_of_disjoint, BitVec.or_zero])
  · simp (disch := omega) only [fld_or, fld_put, fld_put_of_disjoint, fld_bits_left, BitVec.or_zero]

theorem decodeWord_encode_cmr (cond : BitVec 3) (r a b : GReg) :
    decodeWord (encode (cmrInstr cond r a b)) = .ok (cmrInstr cond r a b) := by
  rw [Machine.encode_cmrInstr_eq_put]
  simp (disch := decide) only [decodeWord, decodeCmr_eq, fld_or, fld_put, fld_put_of_disjoint, BitVec.or_zero,
    BitVec.zero_or, ifZero_eq, if_true]

theorem decodeWord_encode_cbr (cond : BitVec 3) (d : BitVec 15) (a b : GReg) :
    decodeWord (encode (cbrInstr cond d a b)) = .ok (cbrInstr cond d a b) := by
  rw [Machine.encode_cbrInstr_eq_put]
  simp (disch := decide) only [decodeWord, decodeCbr_eq, fld_or, fld_put, fld_put_of_disjoint, BitVec.or_zero,
    BitVec.zero_or]

/-- Settles O4: family by family, format by format. -/
theorem decodeEncode : Obligations.DecodeEncode := by
  intro i hi
  cases i with
  | addImm => exact decodeWord_encode_arith .add _ _ _ (.imm ..)
  | addReg => exact decodeWord_encode_arith .add _ _ _ (.reg ..)
  | addIdx => exact decodeWord_encode_arith .add _ _ _ (.idx ..)
  | addOfs => exact decodeWord_encode_arith .add _ _ _ (.ofs ..)
  | addcImm => exact decodeWord_encode_arith .addc _ _ _ (.imm ..)
  | addcReg => exact decodeWord_encode_arith .addc _ _ _ (.reg ..)
  | addcIdx => exact decodeWord_encode_arith .addc _ _ _ (.idx ..)
  | addcOfs => exact decodeWord_encode_arith .addc _ _ _ (.ofs ..)
  | subImm => exact decodeWord_encode_arith .sub _ _ _ (.imm ..)
  | subReg => exact decodeWord_encode_arith .sub _ _ _ (.reg ..)
  | subIdx => exact decodeWord_encode_arith .sub _ _ _ (.idx ..)
  | subOfs => exact decodeWord_encode_arith .sub _ _ _ (.ofs ..)
  | subcImm => exact decodeWord_encode_arith .subc _ _ _ (.imm ..)
  | subcReg => exact decodeWord_encode_arith .subc _ _ _ (.reg ..)
  | subcIdx => exact decodeWord_encode_arith .subc _ _ _ (.idx ..)
  | subcOfs => exact decodeWord_encode_arith .subc _ _ _ (.ofs ..)
  | andImm => exact decodeWord_encode_logic .and _ _ _ (.imm ..)
  | andReg => exact decodeWord_encode_logic .and _ _ _ (.reg ..)
  | andIdx => exact decodeWord_encode_logic .and _ _ _ (.idx ..)
  | andOfs => exact decodeWord_encode_logic .and _ _ _ (.ofs ..)
  | orImm => exact decodeWord_encode_logic .or _ _ _ (.imm ..)
  | orReg => exact decodeWord_encode_logic .or _ _ _ (.reg ..)
  | orIdx => exact decodeWord_encode_logic .or _ _ _ (.idx ..)
  | orOfs => exact decodeWord_encode_logic .or _ _ _ (.ofs ..)
  | xorImm => exact decodeWord_encode_logic .xor _ _ _ (.imm ..)
  | xorReg => exact decodeWord_encode_logic .xor _ _ _ (.reg ..)
  | xorIdx => exact decodeWord_encode_logic .xor _ _ _ (.idx ..)
  | xorOfs => exact decodeWord_encode_logic .xor _ _ _ (.ofs ..)
  | cmpImm => exact decodeWord_encode_compare true _ _ (.imm ..)
  | cmpReg => exact decodeWord_encode_compare true _ _ (.reg ..)
  | cmpIdx => exact decodeWord_encode_compare true _ _ (.idx ..)
  | cmpOfs => exact decodeWord_encode_compare true _ _ (.ofs ..)
  | cmpuImm => exact decodeWord_encode_compare false _ _ (.imm ..)
  | cmpuReg => exact decodeWord_encode_compare false _ _ (.reg ..)
  | cmpuIdx => exact decodeWord_encode_compare false _ _ (.idx ..)
  | cmpuOfs => exact decodeWord_encode_compare false _ _ (.ofs ..)
  | cmrEq r a b => exact decodeWord_encode_cmr 0#3 r a b
  | cmrLt r a b => exact decodeWord_encode_cmr 1#3 r a b
  | cmrGt r a b => exact decodeWord_encode_cmr 2#3 r a b
  | cmrEv r a b => exact decodeWord_encode_cmr 3#3 r a b
  | cmrNe r a b => exact decodeWord_encode_cmr 4#3 r a b
  | cmrLe r a b => exact decodeWord_encode_cmr 5#3 r a b
  | cmrGe r a b => exact decodeWord_encode_cmr 6#3 r a b
  | cmrOd r a b => exact decodeWord_encode_cmr 7#3 r a b
  | cbrEq d a b => exact decodeWord_encode_cbr 0#3 d a b
  | cbrLt d a b => exact decodeWord_encode_cbr 1#3 d a b
  | cbrGt d a b => exact decodeWord_encode_cbr 2#3 d a b
  | cbrLs d a b => exact decodeWord_encode_cbr 3#3 d a b
  | cbrNe d a b => exact decodeWord_encode_cbr 4#3 d a b
  | cbrLe d a b => exact decodeWord_encode_cbr 5#3 d a b
  | cbrGe d a b => exact decodeWord_encode_cbr 6#3 d a b
  | cbrHi d a b => exact decodeWord_encode_cbr 7#3 d a b
  | mrFromSr | mrFromCr | mrToSr | mrToCr =>
    simp (disch := decide) only [encode, decodeWord, decodeMr, fld_or, fld_put, fld_put_of_disjoint, ← put_ten_one,
      ← put_ten_two, BitVec.or_zero, BitVec.zero_or, ifZero_eq, if_true]
  | be d sreg | ble d sreg | itlbA r t sreg | itlbP r t sreg | ptlb t sreg | pca t f sreg =>
    obtain ⟨x, rfl⟩ := exists_segReg hi
    simp (disch := decide) only [encode, decodeWord, decodeItlb, segRegField, put_segReg, putBit, fld_or, bit_or,
      fld_put, fld_put_of_disjoint, bit_put_ofBool, bit_put_one, bit_put_of_disjoint, BitVec.or_zero, BitVec.zero_or,
      Bool.or_false, Bool.false_or, ifZero_eq, if_true, if_false,
      Bool.false_eq_true]
  | brk | ldil | addil | ldoImm | ldoIdx | ldoOfs | lsid | extr | depReg | depImm | dsr | shla | mst | mstSet | mstClear
  | ldbIdx | ldhIdx | ldwIdx | ldbOfs | ldhOfs | ldwOfs | stb | sth | stw | ldwrIdx | ldwrOfs | stwc | branch | gate | br
  | bv | bve | ldeb | ldeh | ldew | ldexb | ldexh | ldexw | steb | steh | stew | ldwa | ldwax | stwa | ldpaIdx | ldpaOfs
  | prb | diag | rfi =>
    simp (disch := decide) only [encode, decodeWord, decodeDep, decodeMst, decodeLd, decodeSt, decodeLdwr, decodeStwc,
      decodeLde, decodeSte, decodeLdwa, decodeStwa, decodeLdpa, decodeLdo, decodeWidth, opcLdo_eq, putBit, fld_or, bit_or,
      fld_put, fld_put_of_disjoint, bit_put_ofBool, bit_put_one, bit_put_of_disjoint, BitVec.or_zero, BitVec.zero_or,
      Bool.or_false, Bool.false_or, ifZero_eq, ifZeroElse_eq, if_true, if_false,
      Bool.false_eq_true]

end Sys2Proof

/-! PROOFS. What each state update does to a frame, one rule an operation: what is written is among what `w` lists. -/

namespace Sys2Proof.Machine

variable {w : Writes} {s t : State}

theorem Frame.writeGr (h : Frame w s t) {r : GReg} (hr : r ∈ w.gr) (v : Word) : Frame w s (t.writeGr r v) :=
  { h with
    gr := fun q hq => by rw [State.readGr_writeGr_ne _ _ (ne_of_mem_of_not_mem hr hq).symm, h.gr q hq] }

theorem Frame.writeSr (h : Frame w s t) {r : SReg} (hr : r ∈ w.sr) (v : Word) : Frame w s (t.writeSr r v) :=
  { h with
    sr := fun q hq => by rw [State.readSr_writeSr, if_neg (ne_of_mem_of_not_mem hr hq).symm, h.sr q hq] }

theorem Frame.writeCr (h : Frame w s t) {r : CReg} (hr : r ∈ w.cr) (v : Word) : Frame w s (t.writeCr r v) :=
  { h with
    cr := fun q hq => by rw [State.readCr_writeCr, if_neg (ne_of_mem_of_not_mem hr hq).symm, h.cr q hq] }

/-- ST may be replaced by a word that has the bits the frame keeps. -/
theorem Frame.setSt (h : Frame w s t) {st : Word} (hst : ∀ k, k < 32 → k ∉ w.status → stBit st k = stBit t.st k) :
    Frame w s (t.setSt st) :=
  { h with status := fun k hk hne => (hst k hk hne).trans (h.status k hk hne) }

theorem Frame.setStatusBit (h : Frame w s t) {i : Nat} (hi : i ∈ w.status) (hi' : i < 32) (v : Bool) :
    Frame w s (t.setStatusBit i v) :=
  h.setSt (fun k hk hne => by rw [stBit_setStBit _ hi' hk, if_neg (ne_of_mem_of_not_mem hi hne).symm])

/-- IA-SEG may be replaced where the frame lists it. -/
theorem Frame.iaSegChanged (h : Frame w s t) (hw : w.iaSeg = true) (v : Word) : Frame w s { t with iaSeg := v } :=
  { h with iaSeg := fun hf => absurd hf (by simp [hw]) }

theorem Frame.setIaSeg (h : Frame w s t) (hw : w.iaSeg = true) (v : Word) : Frame w s (t.setIaSeg v) :=
  h.iaSegChanged hw _

theorem Frame.enterSeg (h : Frame w s t) (hw : w.iaSeg = true) (v : Word) : Frame w s (t.enterSeg v) :=
  h.iaSegChanged hw _

theorem Frame.setTlb (h : Frame w s t) (hw : w.tlbs = true) (side : TlbSide) (l : List TlbEntry) :
    Frame w s (t.setTlb side l) :=
  { h with tlbs := fun hf => absurd hf (by simp [hw]) }

/-- The reservation may be replaced where the frame lists it. -/
theorem Frame.reservationChanged (h : Frame w s t) (hw : w.reservation = true) (v : Bool) (a : Word) :
    Frame w s { t with lrValid := v, lrAddr := a } :=
  { h with reservation := fun hf => absurd hf (by simp [hw]) }

theorem Frame.endReservation (h : Frame w s t) (hw : w.reservation = true) : Frame w s t.endReservation :=
  { h with reservation := fun hf => absurd hf (by simp [hw]) }

theorem Frame.advance (h : Frame w s t) : Frame w s t.advance := h.setIaOfs _

theorem Frame.result (h : Frame w s t) {r : GReg} (hr : r ∈ w.gr) (v : Word) : Frame w s (t.result r v) :=
  (h.writeGr hr v).advance

theorem Frame.writeBase (h : Frame w s t) {b : GReg} {v : Option Word} (hb : v.isSome = true → b ∈ w.gr) :
    Frame w s (t.writeBase b v) :=
  match v, hb with
  | none, _ => h
  | some v, hb => h.writeGr (hb rfl) v

/-- The bytes of a store, and the reservation it may end, where the frame lists them. -/
theorem Frame.storeBytes (h : Frame w s t) {p : Word} {wd : Width} (hres : w.reservation = true)
    (hbytes : w.bytes = (p.toNat, accessBytes wd)) (v : Word) : Frame w s (t.storeBytes p wd v) :=
  { h with
    reservation := fun hf => absurd hf (by simp [hres])
    memory := fun a ha => by
      refine .trans ?_ (h.memory a ha)
      rw [hbytes] at ha
      exact Memory.readByte_write_outside t.mem p.toNat a v wd ha }

end Sys2Proof.Machine

/-! PROOFS. Traps and the step: what taking a trap does, the fetch and its traps, and the words that are no instruction
(60_exceptions.md sections 3 to 5, 20_memory.md R63, 30_encoding.md section 6). -/

namespace Sys2Proof.Machine

/-- A trap writes the control registers it saves into, ST, IA-SEG and IA-OFS, and nothing else. -/
theorem frame_takeTrap (s : State) (tr : Trap) :
    Frame { cr := [17#5, 18#5, 19#5, 20#5, 21#5, 22#5], status := List.range 32, iaSeg := true } s
      (s.takeTrap tr) where
  gr q _ := State.readGr_takeTrap s tr q
  sr q _ := State.readSr_takeTrap s tr q
  cr c hc := by
    simp only [List.mem_cons, List.not_mem_nil, or_false, not_or] at hc
    obtain ⟨h17, h18, h19, h20, h21, h22⟩ := hc
    simp only [State.readCr_takeTrap, h17, h18, h19, h20, h21, h22, if_false]
  status k hk hmem := absurd (List.mem_range.mpr hk) hmem
  iaSeg h := by cases h
  tlbs _ := ⟨State.takeTrap_itlb s tr, State.takeTrap_dtlb s tr⟩
  reservation _ := ⟨State.takeTrap_lrValid s tr, State.takeTrap_lrAddr s tr⟩
  caches _ := ⟨State.takeTrap_dcache s tr, State.takeTrap_icache s tr⟩
  extPending := State.takeTrap_extPending s tr
  pdcWords := State.takeTrap_pdcWords s tr
  memory a _ := by rw [State.takeTrap_mem]

/-- Settles O11: the registers `readCr_takeTrap` gives, and the frame. -/
theorem trapEntry : Obligations.TrapEntry := by
  intro s tr
  exact ⟨State.readCr_takeTrap s tr 17#5, State.readCr_takeTrap s tr 18#5, State.readCr_takeTrap s tr 19#5,
    State.readCr_takeTrap s tr 20#5, State.readCr_takeTrap s tr 21#5, State.readCr_takeTrap s tr 22#5,
    State.takeTrap_st s tr, State.takeTrap_iaSeg s tr, State.takeTrap_iaOfs s tr, frame_takeTrap s tr⟩

/-- An operation that raises a trap takes it in the state it started in. -/
theorem tookTrap_conclude {s : State} {r : Except Stop State} {id : TrapId} {p0 p1 p2 : Option Word}
    (h : r = .error (.trap ⟨id, p0, p1, p2⟩)) : ∃ t, conclude s r = .next t ∧ TookTrap id p0 p1 p2 s t :=
  ⟨_, h ▸ rfl, trapEntry s ⟨id, p0, p1, p2⟩⟩

/-- Settles O10: the interrupt is looked at before the fetch. -/
theorem externalInterrupt : Obligations.ExternalInterrupt := by
  intro s he hp
  have htaken : s.interruptTaken = true := by
    show (stBit s.st 31 && decide (s.extPending &&& s.readCr 23#5 ≠ 0#32)) = true
    rw [he, decide_eq_true hp]
    rfl
  refine ⟨s.takeTrap externalInterruptTrap, ?_, trapEntry s externalInterruptTrap⟩
  unfold step
  rw [if_pos htaken]

theorem step_error {s : State} {e : Stop} (hi : s.interruptTaken = false) (hf : s.fetch = .error e) :
    step s = conclude s (.error e) := by
  unfold step
  rw [hi, hf]
  rfl

theorem step_ok {s t : State} {w : Word} {i : Instr} (h : Fetches s w t) (hd : decodeWord w = .ok i) :
    step s = exec i t := by
  obtain ⟨hi, hf⟩ := h
  unfold step
  rw [hi, hf]
  dsimp only [Bool.false_eq_true]
  rw [if_neg Bool.false_ne_true, hd]
  rfl

theorem step_rejected {s t : State} {w : Word} {e : Reject} (h : Fetches s w t) (hd : decodeWord w = .error e) :
    step s = rejected w e t := by
  obtain ⟨hi, hf⟩ := h
  unfold step
  rw [hi, hf]
  dsimp only [Bool.false_eq_true]
  rw [if_neg Bool.false_ne_true, hd]

/-- A fetch that reaches readable memory gives the word there. -/
theorem fetch_of_fetchAddr {s t : State} {p : Word} (ha : s.fetchAddr = .ok (p, t)) (hr : Readable t p) :
    s.fetch = .ok (t.mem.read p.toNat .word, t) := by
  unfold State.fetch
  rw [ha]
  dsimp only
  rw [physRead_ok .word hr]
  rfl

theorem fetchAddr_untranslated {s : State} (h : s.cBit = false ∨ s.iaSeg = 0#32) : s.fetchAddr = .ok (s.iaOfs, s) := by
  unfold State.fetchAddr
  by_cases hc : s.cBit = false
  · rw [if_pos hc]
  · rw [if_neg hc, if_pos ((bypasses_iff _).mpr (h.resolve_left hc))]

theorem fetchAddr_miss {s : State} (hc : s.cBit = true) (hs : s.iaSeg ≠ 0#32)
    (hl : s.tlbLookup .instr s.iaSeg s.iaOfs = none) : s.fetchAddr = raise .instrTlbMiss := by
  unfold State.fetchAddr
  rw [if_neg (by simp [hc]), if_neg (mt (bypasses_iff _).mp hs), hl]

/-- A translated fetch is decided by the page's ITLB entry. -/
theorem fetchAddr_entry {s : State} {e : TlbEntry} (hc : s.cBit = true) (hs : s.iaSeg ≠ 0#32)
    (hl : s.tlbLookup .instr s.iaSeg s.iaOfs = some e) : s.fetchAddr = s.fetchEntry e := by
  unfold State.fetchAddr
  rw [if_neg (by simp [hc]), if_neg (mt (bypasses_iff _).mp hs), hl]

/-- The state a page is run in: the level is lowered where PL2 asks for it. -/
def State.demoted (s : State) (e : TlbEntry) : State := if s.level < arPl2 e.ar then s.setStatusBit stX true else s

theorem fetchEntry_ok {s : State} {e : TlbEntry} (ht : 2 ≤ pageType e.ar) (hl : s.level ≤ arPl1 e.ar)
    (hp : s.pBit = true → s.pidAllowed .read e.pid = true) :
    s.fetchEntry e = .ok (pageAddr e.ppn s.iaOfs, s.demoted e) := by
  unfold State.fetchEntry
  rw [if_neg (by omega), if_neg (by omega), if_neg (fun h => by simp [hp h.1] at h)]
  rfl

theorem fetchEntry_trap {s : State} {e : TlbEntry}
    (h : pageType e.ar < 2 ∨ arPl1 e.ar < s.level ∨ (s.pBit = true ∧ s.pidAllowed .read e.pid = false)) :
    s.fetchEntry e = raise .instrProtection := by
  unfold State.fetchEntry
  split
  · rfl
  · split
    · rfl
    · rw [if_pos ((h.resolve_left ‹_›).resolve_left ‹_›)]

/-- The level after a status bit 1 is set. -/
theorem level_setStatusBit (s : State) (v : Bool) : (s.setStatusBit stX v).level = v.toNat := by
  show (stBit (setStBit s.st stX v) stX).toNat = v.toNat
  rw [stBit_setStBit _ (by decide) (by decide), if_pos rfl]

theorem level_le_one (s : State) : s.level ≤ 1 := Bool.toNat_le s.xBit

theorem arPl2_le_one (ar : BitVec 4) : arPl2 ar ≤ 1 := Bool.toNat_le _

theorem demoted_level (s : State) (e : TlbEntry) : (s.demoted e).level = max s.level (arPl2 e.ar) := by
  have := arPl2_le_one e.ar
  unfold State.demoted
  split
  · rw [level_setStatusBit, Bool.toNat_true]
    omega
  · omega

theorem frame_demoted (s : State) (e : TlbEntry) : Frame { status := [1] } s (s.demoted e) := by
  unfold State.demoted
  split
  · exact (frame_refl _ s).setStatusBit (by simp [stX]) (by decide) true
  · exact frame_refl _ s

theorem demoted_iaOfs (s : State) (e : TlbEntry) : (s.demoted e).iaOfs = s.iaOfs := by
  unfold State.demoted
  split <;> rfl

theorem demoted_mem (s : State) (e : TlbEntry) : (s.demoted e).mem = s.mem := by
  unfold State.demoted
  split <;> rfl

theorem demoted_pdcWords (s : State) (e : TlbEntry) : (s.demoted e).pdcWords = s.pdcWords := by
  unfold State.demoted
  split <;> rfl

/-- What can be read depends on where PDC code is placed alone. -/
theorem readable_congr {s t : State} (h : t.pdcWords = s.pdcWords) {p : Word} (hp : Readable s p) : Readable t p := by
  unfold Readable
  rw [h]
  exact hp

/-- Settles O8: the entry's page, run in the demoted state. -/
theorem translatedFetch : Obligations.TranslatedFetch := by
  intro s e hi hc hs hl ht hlevel hpid hr
  refine ⟨_, s.demoted e, bytesAre_read s.mem _ .word, ⟨hi, ?_⟩, demoted_level s e, demoted_iaOfs s e,
    frame_demoted s e⟩
  rw [← demoted_mem s e]
  exact fetch_of_fetchAddr ((fetchAddr_entry hc hs hl).trans (fetchEntry_ok ht hlevel hpid))
    (readable_congr (demoted_pdcWords s e) hr)

/-- Settles O9: without an entry, and with one that does not allow the fetch. -/
theorem fetchTraps : Obligations.FetchTraps := by
  intro s hi hc hs
  have hstep : ∀ id, s.fetchAddr = raise id → ∃ t, step s = .next t ∧ TookTrap id none none none s t := by
    intro id ha
    rw [step_error hi (show s.fetch = raise id by unfold State.fetch; rw [ha]; rfl)]
    exact tookTrap_conclude rfl
  exact ⟨fun hl => hstep _ (fetchAddr_miss hc hs hl),
    fun e hl hprot => hstep _ ((fetchAddr_entry hc hs hl).trans (fetchEntry_trap hprot))⟩

/-- Four bytes are decoded as their word. -/
theorem decodeWord_of_decode {b0 b1 b2 b3 : Byte} {i : Instr} {rest : List Byte}
    (h : decode [b0, b1, b2, b3] = .ok (i, rest)) : decodeWord (wordOfBytes b0 b1 b2 b3) = .ok i := by
  simp only [decode] at h
  split at h
  · cases h
    assumption
  · cases h

/-- Settles O7: a step decodes the word fetched, which untranslated is that of the four bytes at IA-OFS. -/
theorem stepRunsInstruction : Obligations.StepRunsInstruction := by
  refine ⟨fun s t w i => step_ok, fun s i hi hc hr hdecode => ?_⟩
  have hd : decodeWord (s.mem.read s.iaOfs.toNat .word) = .ok i := decodeWord_of_decode hdecode
  exact step_ok ⟨hi, fetch_of_fetchAddr (fetchAddr_untranslated hc) hr⟩ hd

/-! Words that are no instruction. -/

theorem decodeWidth_three {w : Word} (b h wd : Except Reject Instr) (hw : fld w 14 2 = 3#2) :
    decodeWidth w b h wd = .error .undefinedForm := by
  simp only [decodeWidth, hw]
  rfl

/-- The opcodes of 30_encoding.md R121. -/
theorem decodeWord_unassigned {w : Word}
    (h : fld w 0 6 ∈ [0x0C#6, 0x0D#6, 0x0E#6, 0x0F#6, 0x19#6, 0x1E#6, 0x1F#6, 0x28#6, 0x29#6, 0x2A#6, 0x2B#6, 0x2C#6,
        0x2D#6, 0x2E#6, 0x2F#6, 0x34#6, 0x35#6, 0x36#6, 0x37#6, 0x38#6]) :
    decodeWord w = .error .unassignedOpcode := by
  simp only [List.mem_cons, List.not_mem_nil, or_false] at h
  rcases h with h | h | h | h | h | h | h | h | h | h | h | h | h | h | h | h | h | h | h | h
  all_goals
    simp only [decodeWord, h]
    rfl

theorem decodeWord_ld {w : Word} (hop : fld w 0 6 = 0x1A#6) : decodeWord w = decodeLd w := by
  simp only [decodeWord, hop]

theorem decodeWord_st {w : Word} (hop : fld w 0 6 = 0x1B#6) : decodeWord w = decodeSt w := by
  simp only [decodeWord, hop]

theorem decodeWord_ldwr {w : Word} (hop : fld w 0 6 = 0x1C#6) : decodeWord w = decodeLdwr w := by
  simp only [decodeWord, hop]

theorem decodeWord_stwc {w : Word} (hop : fld w 0 6 = 0x1D#6) : decodeWord w = decodeStwc w := by
  simp only [decodeWord, hop]

theorem decodeWord_lde {w : Word} (hop : fld w 0 6 = 0x30#6) : decodeWord w = decodeLde w := by
  simp only [decodeWord, hop]

theorem decodeWord_ste {w : Word} (hop : fld w 0 6 = 0x31#6) : decodeWord w = decodeSte w := by
  simp only [decodeWord, hop]

theorem decodeWord_stwa {w : Word} (hop : fld w 0 6 = 0x33#6) : decodeWord w = decodeStwa w := by
  simp only [decodeWord, hop]

theorem decodeWord_ldo {w : Word} (hop : fld w 0 6 = 0x03#6) : decodeWord w = decodeLdo w := by
  simp only [decodeWord, hop]
  rfl

theorem decodeWord_ldpa {w : Word} (hop : fld w 0 6 = 0x39#6) : decodeWord w = decodeLdpa w := by
  simp only [decodeWord, hop]

theorem decodeWord_mst {w : Word} (hop : fld w 0 6 = 0x0B#6) : decodeWord w = decodeMst w := by
  simp only [decodeWord, hop]

theorem decodeLd_undefined {w : Word} (h : (fld w 12 2 = 0#2 ∨ fld w 12 2 = 1#2) ∨ fld w 14 2 = 3#2) :
    decodeLd w = .error .undefinedForm := by
  rcases h with (h | h) | hw
  · simp only [decodeLd, h]
    rfl
  · simp only [decodeLd, h]
    rfl
  · simp only [decodeLd, decodeWidth_three _ _ _ hw]
    split <;> rfl

theorem decodeSt_undefined {w : Word} (h : fld w 12 2 ≠ 3#2 ∨ fld w 14 2 = 3#2) :
    decodeSt w = .error .undefinedForm := by
  unfold decodeSt
  dsimp only
  split
  · rw [decodeWidth_three _ _ _ (h.resolve_left (fun hne => hne ‹_›))]
  · rfl

theorem decodeLdwr_undefined {w : Word} (h : (fld w 12 2 = 0#2 ∨ fld w 12 2 = 1#2) ∨ fld w 14 2 ≠ 2#2) :
    decodeLdwr w = .error .undefinedForm := by
  unfold decodeLdwr
  split
  · simp_all
  · simp_all
  · rfl

theorem decodeStwc_undefined {w : Word} (h : fld w 12 2 ≠ 3#2 ∨ fld w 14 2 ≠ 2#2) :
    decodeStwc w = .error .undefinedForm := by
  unfold decodeStwc
  split
  · simp_all
  · rfl

theorem decodeLde_undefined {w : Word} (h : fld w 14 2 = 3#2) : decodeLde w = .error .undefinedForm := by
  simp only [decodeLde, decodeWidth_three _ _ _ h, ite_self]

theorem decodeSte_undefined {w : Word} (h : fld w 14 2 = 3#2 ∨ bit w 10 = true) :
    decodeSte w = .error .undefinedForm := by
  rcases h with h | h
  · simp only [decodeSte, decodeWidth_three _ _ _ h, ite_self]
  · simp only [decodeSte, h, if_true]

theorem decodeStwa_undefined {w : Word} (h : bit w 10 = true) : decodeStwa w = .error .undefinedForm := by
  simp only [decodeStwa, h, if_true]

theorem decodeLdo_undefined {w : Word} (h : fld w 12 2 = 1#2) : decodeLdo w = .error .undefinedForm := by
  simp only [decodeLdo, h]
  rfl

theorem decodeLdpa_undefined {w : Word} (h : fld w 12 2 = 0#2 ∨ fld w 12 2 = 1#2) :
    decodeLdpa w = .error .undefinedForm := by
  rcases h with h | h
  · simp only [decodeLdpa, h]
    rfl
  · simp only [decodeLdpa, h]
    rfl

theorem decodeMst_undefined {w : Word} (h : fld w 10 2 = 3#2) : decodeMst w = .error .undefinedMstMode := by
  simp only [decodeMst, h]
  rfl

/-- A word of no opcode or form takes trap 5 with the word. -/
theorem step_illegal {s t : State} {w : Word} (hf : Fetches s w t)
    (hd : decodeWord w = .error .unassignedOpcode ∨ decodeWord w = .error .undefinedForm) :
    ∃ u, step s = .next u ∧ TookTrap .illegalInstruction (some w) none none t u := by
  rcases hd with hd | hd
  · rw [step_rejected hf hd]
    exact tookTrap_conclude rfl
  · rw [step_rejected hf hd]
    exact tookTrap_conclude rfl

/-- Settles O12: each word's rejection, then the trap `rejected` takes for it. -/
theorem illegalWords : Obligations.IllegalWords := by
  intro s t w hf
  constructor
  · intro h
    refine step_illegal hf ?_
    simp only [List.mem_pair] at h
    rcases h with h | ⟨hop | hop, h⟩ | ⟨hop, h⟩ | ⟨hop, h⟩ | ⟨hop, h⟩ | ⟨hop | hop, h⟩ | ⟨hop | hop, h⟩ | ⟨hop, h⟩ |
      ⟨hop, h⟩
    · exact .inl (decodeWord_unassigned h)
    · exact .inr (decodeWord_ld hop ▸ decodeLd_undefined h)
    · refine .inr (decodeWord_st hop ▸ decodeSt_undefined (h.imp_left ?_))
      rintro (h | h) <;> simp [h]
    · exact .inr (decodeWord_st hop ▸ decodeSt_undefined (.inl (by simp [h])))
    · exact .inr (decodeWord_ldwr hop ▸ decodeLdwr_undefined h)
    · exact .inr (decodeWord_stwc hop ▸ decodeStwc_undefined h)
    · exact .inr (decodeWord_lde hop ▸ decodeLde_undefined h)
    · exact .inr (decodeWord_ste hop ▸ decodeSte_undefined (.inl h))
    · exact .inr (decodeWord_ste hop ▸ decodeSte_undefined (.inr h))
    · exact .inr (decodeWord_stwa hop ▸ decodeStwa_undefined h)
    · exact .inr (decodeWord_ldo hop ▸ decodeLdo_undefined h)
    · exact .inr (decodeWord_ldpa hop ▸ decodeLdpa_undefined h)
  · intro hop hmode
    rw [step_rejected hf ((decodeWord_mst hop).trans (decodeMst_undefined hmode))]
    unfold rejected
    dsimp only
    cases t.xBit with
    | true => exact tookTrap_conclude rfl
    | false => exact tookTrap_conclude rfl

/-- A reserved field with a bit set rejects the word. -/
theorem ifZero_nonzero {w : Word} {i n : Nat} (h : fld w i n ≠ 0#n) (r : Except Reject Instr) :
    ifZero w i n r = .error .reservedField := by
  rw [ifZero_eq, if_neg h]

/-- LDEXx of any width with a bit set between its displacement fields. -/
theorem decodeLde_reserved {w : Word} (hx : bit w 10 = true) (hw : fld w 14 2 ≠ 3#2) (hz : fld w 16 8 ≠ 0#8) :
    decodeLde w = .error .reservedExtended := by
  simp only [decodeLde, hx, if_true, ifZeroElse_eq, if_neg hz]
  unfold decodeWidth
  split
  · rfl
  · rfl
  · rfl
  · exact absurd (eq_three_of_ne _ ‹_› ‹_› ‹_›) hw

/-- Settles O13: each word's rejection, which `rejected` refuses by name. -/
theorem reservedFieldRefused : Obligations.ReservedFieldRefused := by
  intro s t w hf h
  rcases h with ⟨hop, h⟩ | ⟨hop, h⟩ | ⟨hop, h⟩ | ⟨hop, h⟩ | ⟨hop, hx, hw, hz, hd⟩
  · have hdecode : decodeWord w = .error .reservedField := by simp only [decodeWord, hop, ifZero_nonzero h]
    rw [step_rejected hf hdecode]
    rfl
  · have hdecode : decodeWord w = .error .reservedField := by simp only [decodeWord, hop, ifZero_nonzero h]
    rw [step_rejected hf hdecode]
    rfl
  · have hdecode : decodeWord w = .error .reservedField := by simp only [decodeWord, hop, ifZero_nonzero h]
    rw [step_rejected hf hdecode]
    rfl
  · have hbit : fld w 24 1 ≠ 0#1 := by
      rw [fld_eq_one_of_bit h]
      decide
    have hdecode : decodeWord w = .error .reservedField := by simp only [decodeWord, hop, ifZero_nonzero hbit]
    rw [step_rejected hf hdecode]
    rfl
  · rw [step_rejected hf ((decodeWord_lde hop).trans (decodeLde_reserved hx hw hz))]
    unfold rejected
    rw [hd]
    rfl

end Sys2Proof.Machine

/-! PROOFS. Reset, and the instructions whose effect is one update of registers: LDO, MR, MST, DIAG, RFI, BRK, the
external branches and GATE. -/

namespace Sys2Proof.Machine

/-- Settles O1. -/
theorem resetState : Obligations.ResetState := ⟨rfl, rfl, rfl, rfl, rfl, rfl, rfl, rfl, rfl⟩

/-- Settles O2: every list is empty, and the zeros are aligned. -/
theorem resetSound : Obligations.ResetSound where
  iaOfs_aligned := by decide
  mem_wf := by decide
  pdc_rising := List.Pairwise.nil
  itlb_rising := List.Pairwise.nil
  dtlb_rising := List.Pairwise.nil
  dcache_rising := List.Pairwise.nil
  icache_rising := List.Pairwise.nil
  shamt_five_bits := by decide

/-- Settles O6: evaluation of the decoder on six words. -/
theorem decodedWords : Obligations.DecodedWords := by
  refine ⟨?_, ?_, ?_, ?_, ?_, ?_⟩ <;> decide

/-- Settles O16: each mode is `State.result` of its sum. -/
theorem ldoResult : Obligations.LdoResult := by
  intro r a b dw v d s
  exact ⟨⟨_, rfl, result_spec s r _⟩, ⟨_, rfl, result_spec s r _⟩, ⟨_, rfl, result_spec s r _⟩⟩

/-- At the privileged level a privileged operation that succeeds ends as it does. -/
theorem conclude_privileged_ok {s : State} (hx : s.xBit = false) (w : Word) (t : State) :
    conclude s (privileged s w (.ok t)) = .next t := by
  rw [privileged_priv hx, conclude_ok]

/-- Settles O53: the default platform answers 0. -/
theorem diagResult : Obligations.DiagResult := by
  intro r a b s hx
  exact ⟨_, conclude_privileged_ok hx _ _, result_spec s r 0#32⟩

theorem frame_returnFromTrap (s : State) :
    Frame { status := List.range 32, iaSeg := true } s s.returnFromTrap :=
  (((frame_refl _ s).setIaSeg rfl _).setIaOfs _).setSt
    (fun _ hk hne => absurd (List.mem_range.mpr hk) hne)

/-- Settles O54: `State.returnFromTrap`. -/
theorem rfiResult : Obligations.RfiResult := by
  intro s hx
  exact ⟨_, conclude_privileged_ok hx _ _, truncSeg_eq _, rfl, rfl, frame_returnFromTrap s⟩

/-- Settles O55: the two branches of `execBrk`. -/
theorem brkResult : Obligations.BrkResult := by
  intro info1 info2 s
  refine ⟨fun h => ⟨s.advance, if_pos h, rfl, frame_advance s⟩, fun h => ?_⟩
  rw [show exec (.brk info1 info2) s = _ from if_neg h]
  exact tookTrap_conclude rfl

/-- A segment register number as a field of four bits and back. -/
theorem segReg_setWidth (sr : SReg) : (sr.setWidth 4).setWidth 3 = sr := by
  decide +revert

theorem enterSeg_iaSeg (s : State) (seg : Word) : (s.enterSeg seg).iaSeg = if s.cBit then seg else s.iaSeg := by
  simp only [State.enterSeg, truncSeg_eq]

/-- Settles O41: `State.enterSeg` and the target. -/
theorem externalBranchResult : Obligations.ExternalBranchResult := by
  intro sr a b d s
  rw [← wordDisp_eq_mul, ← wordDisp_eq_mul, ← segSelect_eq_ofNat]
  refine ⟨⟨_, rfl, rfl, ?_, ((frame_refl _ s).enterSeg rfl _).setIaOfs _⟩,
    ⟨_, rfl, rfl, enterSeg_iaSeg s _, ((frame_refl _ s).enterSeg rfl _).setIaOfs _⟩⟩
  refine (enterSeg_iaSeg s _).trans ?_
  rw [segReg_setWidth]

/-- Settles O42: the old registers are read before SR0 and GR1 are written. -/
theorem bleResult : Obligations.BleResult := by
  intro sr b d s
  rw [← wordDisp_eq_mul]
  refine ⟨_, rfl, rfl, ?_, ?_, ?_, ?_⟩
  · refine (enterSeg_iaSeg _ _).trans ?_
    rw [segReg_setWidth]
    rfl
  · exact (State.readSr_writeSr s 0#3 0#3 s.iaSeg).trans (if_pos rfl)
  · exact (State.readGr_writeGr (s.writeSr 0#3 s.iaSeg) 1#4 1#4 s.linkOfs).trans (if_pos rfl)
  · exact ((((frame_refl _ s).writeSr (by simp) _).writeGr (by simp) _).enterSeg rfl _).setIaOfs _

/-- The level as a word and as a number. -/
theorem boolWord_xBit (s : State) : boolWord s.xBit = BitVec.ofNat 32 s.level := by
  unfold State.level
  cases s.xBit <;> rfl

theorem toNat_decide_eq_one {n : Nat} (h : n ≤ 1) : (decide (n = 1)).toNat = n := by
  obtain rfl | rfl : n = 0 ∨ n = 1 := by omega
  · rfl
  · rfl

/-- The level GATE leaves, as a number (42_branch.md R178). -/
theorem gateLevel_toNat {s : State} {new : Nat}
    (h : (s.cBit = false ∧ new = 0) ∨ (s.cBit = true ∧ s.iaSeg = 0#32 ∧ new = s.level) ∨
      (s.cBit = true ∧ s.iaSeg ≠ 0#32 ∧ ∃ e, s.tlbLookup .instr s.iaSeg s.iaOfs = some e ∧
        new = if pageType e.ar = 3 then min s.level (arPl2 e.ar) else s.level)) : s.gateLevel.toNat = new := by
  have hlevel := level_le_one s
  unfold State.gateLevel
  rcases h with ⟨hc, rfl⟩ | ⟨hc, hs, rfl⟩ | ⟨hc, hs, e, hl, rfl⟩
  · rw [if_pos hc]
    rfl
  · rw [if_neg (by simp [hc]), if_pos ((bypasses_iff _).mpr hs)]
    rfl
  · rw [if_neg (by simp [hc]), if_neg (mt (bypasses_iff _).mp hs), hl]
    dsimp only
    split
    · rw [gateField_eq]
      exact toNat_decide_eq_one (by omega)
    · rfl

/-- Settles O43: the old level is read before the new one is set. -/
theorem gateResult : Obligations.GateResult := by
  intro r d s new hnew
  rw [← wordDisp_eq_mul, ← boolWord_xBit]
  refine ⟨_, rfl, rfl, ?_, ?_, ?_⟩
  · exact (State.readGr_writeGr s r r _).trans (if_pos rfl)
  · exact (level_setStatusBit (s.writeGr r _) s.gateLevel).trans (gateLevel_toNat hnew)
  · exact (((frame_refl _ s).writeGr (by simp) _).setStatusBit (by simp [stX]) (by decide) _).setIaOfs _

/-- What a control register keeps of a word: SHAMT five bits, any other all. -/
theorem crKeep_eq (c : CReg) (v : Word) : crKeep c v = if c = 2#5 then v &&& 0x1F#32 else v := by
  simp [crKeep]

/-- Settles O45: the two reads, and the two writes where no trap is taken. -/
theorem mrResult : Obligations.MrResult := by
  intro r sr cr s
  refine ⟨⟨_, rfl, result_spec s r _⟩, ⟨_, rfl, result_spec s r _⟩, fun h => ?_, fun h => ?_⟩
  · have hpriv : ¬ (s.xBit && decide (5 ≤ sr.toNat)) = true := by
      rcases h with h | h
      · simp [h]
      · simp only [Bool.and_eq_true, decide_eq_true_eq]
        omega
    refine ⟨_, if_neg hpriv, ?_, rfl, ((frame_refl _ s).writeSr (by simp) _).advance⟩
    exact (State.readSr_writeSr s sr sr _).trans (if_pos rfl)
  · have hpriv : ¬ (s.xBit && decide (cr ≠ 2#5)) = true := by
      rcases h with h | h
      · simp [h]
      · simp [h]
    refine ⟨_, if_neg hpriv, ?_, rfl, ((frame_refl _ s).writeCr (by simp) _).advance⟩
    rw [← crKeep_eq]
    exact (State.readCr_writeCr s cr cr _).trans (if_pos rfl)

/-- The bits MST can change are the six rightmost. -/
theorem getLsbD_systemMask (k : Nat) : systemMask.getLsbD k = decide (k < 6) := by
  rw [show systemMask = fieldMask 6 0 from rfl, getLsbD_fieldMask]
  simp only [decide_eq_decide]
  omega

/-- A bit of the status word MST leaves. -/
theorem getLsbD_moveStatus (r : GReg) (v : Word) (s : State) {k : Nat} (hk : k < 32) :
    (moveStatus r v s).st.getLsbD k = if k < 6 then v.getLsbD k else s.st.getLsbD k := by
  show ((s.st &&& ~~~systemMask) ||| (v &&& systemMask)).getLsbD k = _
  simp only [BitVec.getLsbD_or, BitVec.getLsbD_and, BitVec.getLsbD_not, getLsbD_systemMask, hk]
  by_cases h : k < 6 <;> simp [h]

/-- MST puts the six rightmost bits of `v` into ST and the old ones into GR[r]. -/
theorem moveStatus_spec (r : GReg) (v : Word) (s : State) :
    (moveStatus r v s).readGr r = (if r = 0#4 then 0#32 else BitVec.ofNat 32 (s.st.toNat % 64)) ∧
      (∀ k, k < 6 → (moveStatus r v s).st.getLsbD k = v.getLsbD k) ∧ Advances s (moveStatus r v s) ∧
      Frame { gr := [r], status := [26, 27, 28, 29, 30, 31] } s (moveStatus r v s) := by
  have hold : s.st &&& systemMask = BitVec.ofNat 32 (s.st.toNat % 64) := by
    apply BitVec.eq_of_toNat_eq
    rw [BitVec.toNat_and, show systemMask.toNat = 2 ^ 6 - 1 from rfl, Nat.and_two_pow_sub_one_eq_mod,
      BitVec.toNat_ofNat]
    omega
  refine ⟨?_, fun k hk => ?_, rfl, ((frame_refl _ s).setSt (fun k hk hne => ?_)).result (by simp) _⟩
  · rw [← hold]
    exact (State.readGr_writeGr _ r r _).trans (if_pos rfl)
  · rw [getLsbD_moveStatus r v s (by omega), if_pos hk]
  · have hk' : ¬ 31 - k < 6 := by
      simp only [List.mem_cons, List.not_mem_nil, or_false, not_or] at hne
      omega
    exact (getLsbD_moveStatus r v s (by omega)).trans (if_neg hk')

/-- Settles O46: `moveStatus` of the word each mode gives. -/
theorem mstResult : Obligations.MstResult := by
  intro r b v s i new hx h
  have hspec : ∀ nv, (∀ k, k < 6 → nv.getLsbD k = new k) → exec i s = .next (moveStatus r nv s) →
      ∃ t, exec i s = .next t ∧
        t.readGr r = (if r = 0#4 then 0#32 else BitVec.ofNat 32 (s.st.toNat % 64)) ∧
        (∀ k, k < 6 → t.st.getLsbD k = new k) ∧ Advances s t ∧
        Frame { gr := [r], status := [26, 27, 28, 29, 30, 31] } s t := by
    intro nv hnv hexec
    obtain ⟨hread, hst, hadv, hframe⟩ := moveStatus_spec r nv s
    exact ⟨_, hexec, hread, fun k hk => (hst k hk).trans (hnv k hk), hadv, hframe⟩
  rcases h with ⟨rfl, hnew⟩ | ⟨rfl, hnew⟩ | ⟨rfl, hnew⟩
  · exact hspec _ (fun k _ => (hnew k).symm) (conclude_privileged_ok hx _ _)
  · refine hspec _ (fun k hk => ?_) (conclude_privileged_ok hx _ _)
    rw [hnew]
    simp [show k < 32 by omega]
  · refine hspec _ (fun k hk => ?_) (conclude_privileged_ok hx _ _)
    rw [hnew]
    simp [show k < 32 by omega]

/-- Settles O47: the check comes before anything else. -/
theorem privilegedTrap : Obligations.PrivilegedTrap := by
  intro i s hi hx
  cases i with
  | mst | mstSet | mstClear | ldpaIdx | ldpaOfs | itlbA | itlbP | ptlb | pca | diag | rfi | ldwa | ldwax | stwa =>
    exact tookTrap_conclude (privileged_user hx _ _)
  | mrToSr r sr =>
    have hpriv : (s.xBit && decide (5 ≤ sr.toNat)) = true := by rw [hx, Bool.true_and]; exact hi
    rw [show exec (.mrToSr r sr) s = _ from if_pos hpriv]
    exact tookTrap_conclude rfl
  | mrToCr r cr =>
    have hpriv : (s.xBit && decide (cr ≠ 2#5)) = true := by rw [hx, Bool.true_and]; exact hi
    rw [show exec (.mrToCr r cr) s = _ from if_pos hpriv]
    exact tookTrap_conclude rfl
  | _ => cases hi

end Sys2Proof.Machine

/-! PROOFS. LDPA, PRB, ITLB, PTLB and PCA (44_system_control.md R224 to R228): a translation that is no access, and the
entry of a page after an insertion and a purge. -/

namespace Sys2Proof.Machine

theorem nonAccessAddr_zero {s : State} {side : TlbSide} {miss : TrapId} {seg ofs : Word} (h : seg = 0#32) :
    s.nonAccessAddr side miss seg ofs = .ok ofs := by
  unfold State.nonAccessAddr
  rw [if_pos ((bypasses_iff _).mpr h)]

theorem nonAccessAddr_entry {s : State} {side : TlbSide} {miss : TrapId} {seg ofs : Word} {e : TlbEntry}
    (h : seg ≠ 0#32) (hl : s.tlbLookup side seg ofs = some e) :
    s.nonAccessAddr side miss seg ofs = .ok (pageAddr e.ppn ofs) := by
  unfold State.nonAccessAddr
  rw [if_neg (mt (bypasses_iff _).mp h), hl]

theorem nonAccessAddr_miss {s : State} {side : TlbSide} {miss : TrapId} {seg ofs : Word} (h : seg ≠ 0#32)
    (hl : s.tlbLookup side seg ofs = none) : s.nonAccessAddr side miss seg ofs = raise miss := by
  unfold State.nonAccessAddr
  rw [if_neg (mt (bypasses_iff _).mp h), hl]

theorem loadPhysAddr_ok {s : State} {r : GReg} {x p : Word}
    (h : s.nonAccessAddr .data .nonAccessDataTlbMiss (s.logicalSeg x) x = .ok p) :
    loadPhysAddr r x s = .ok (s.result r p) := by
  unfold loadPhysAddr
  rw [h]

theorem loadPhysAddr_miss {s : State} {r : GReg} {x : Word}
    (h : s.nonAccessAddr .data .nonAccessDataTlbMiss (s.logicalSeg x) x = raise .nonAccessDataTlbMiss) :
    loadPhysAddr r x s = raise .nonAccessDataTlbMiss := by
  unfold loadPhysAddr
  rw [h]
  rfl

/-- Settles O48: the three answers of `State.nonAccessAddr`. -/
theorem ldpaResult : Obligations.LdpaResult := by
  intro r a b dw d s i x hx hi
  have hexec : exec i s = conclude s (loadPhysAddr r x s) := by
    rcases hi with ⟨rfl, rfl⟩ | ⟨rfl, rfl⟩
    · exact congrArg (conclude s) (privileged_priv hx _ _)
    · exact congrArg (conclude s) (privileged_priv hx _ _)
  rw [hexec]
  refine ⟨fun hs => ?_, fun hs => ⟨fun e he => ?_, fun he => ?_⟩⟩
  · rw [loadPhysAddr_ok (nonAccessAddr_zero hs)]
    exact ⟨_, rfl, result_spec s r x⟩
  · rw [loadPhysAddr_ok (nonAccessAddr_entry hs he), ← pageAddr_eq]
    exact ⟨_, rfl, result_spec s r _⟩
  · rw [loadPhysAddr_miss (nonAccessAddr_miss hs he)]
    exact tookTrap_conclude rfl

theorem exec_prb_ok {s : State} {r a b : GReg} {m p byReg : Bool} {seg : BitVec 2} {ok : Bool}
    (h : s.probe (if m then .write else .read) (if byReg then (s.readGr a).toNat else p.toNat)
      (s.extSeg seg (s.readGr b)) (s.readGr b) = .ok ok) :
    exec (.prb r m p byReg seg a b) s = .next (s.result r (boolWord ok)) := by
  show execPrb r m p byReg seg a b s = _
  unfold execPrb
  dsimp only
  rw [h]

theorem exec_prb_error {s : State} {r a b : GReg} {m p byReg : Bool} {seg : BitVec 2} {e : Stop}
    (h : s.probe (if m then .write else .read) (if byReg then (s.readGr a).toNat else p.toNat)
      (s.extSeg seg (s.readGr b)) (s.readGr b) = .error e) :
    exec (.prb r m p byReg seg a b) s = conclude s (.error e) := by
  show execPrb r m p byReg seg a b s = _
  unfold execPrb
  dsimp only
  rw [h]

theorem probe_zero {s : State} {kind : Access} {level : Nat} {seg ofs : Word} (h : seg = 0#32) :
    s.probe kind level seg ofs = .ok true := by
  unfold State.probe
  rw [if_pos ((bypasses_iff _).mpr h)]

theorem probe_miss {s : State} {kind : Access} {level : Nat} {seg ofs : Word} (h : seg ≠ 0#32)
    (hl : s.tlbLookup .data seg ofs = none) : s.probe kind level seg ofs = raise .nonAccessDataTlbMiss := by
  unfold State.probe
  rw [if_neg (mt (bypasses_iff _).mp h), hl]

/-- A probe of a page with an entry: the rights, and the protection id where it is checked. -/
theorem probe_entry {s : State} {kind : Access} {level : Nat} {seg ofs : Word} {e : TlbEntry} (h : seg ≠ 0#32)
    (hl : s.tlbLookup .data seg ofs = some e) :
    ∃ ok, s.probe kind level seg ofs = .ok ok ∧
      (ok = true ↔ accessAllowed kind e.ar level = true ∧ (s.pBit = true → s.pidAllowed kind e.pid = true)) := by
  unfold State.probe
  rw [if_neg (mt (bypasses_iff _).mp h), hl]
  refine ⟨_, rfl, ?_⟩
  cases s.pBit <;> simp

/-- Settles O49: the answers of `State.probe`. -/
theorem prbResult : Obligations.PrbResult := by
  intro r a b m p byReg seg s x sid level kind hx hsid hlevel hkind
  subst hx hsid hlevel hkind
  refine ⟨fun hs => ?_, fun hs => ⟨fun e he => ?_, fun he => ?_⟩⟩
  · exact ⟨_, exec_prb_ok (probe_zero hs), result_spec s r 1#32⟩
  · obtain ⟨ok, hprobe, hok⟩ := probe_entry hs he
    refine ⟨fun hallowed => ?_, fun hdenied => ?_⟩
    · obtain rfl := hok.mpr hallowed
      exact ⟨_, exec_prb_ok hprobe, result_spec s r 1#32⟩
    · obtain rfl := Bool.eq_false_iff.mpr (mt hok.mp hdenied)
      exact ⟨_, exec_prb_ok hprobe, result_spec s r 0#32⟩
  · rw [exec_prb_error (probe_miss hs he)]
    exact tookTrap_conclude rfl

/-- The TLB that was replaced. -/
theorem tlb_setTlb (s : State) (side : TlbSide) (l : List TlbEntry) : (s.setTlb side l).tlb side = l := by
  cases side <;> rfl

/-- The other TLB. -/
theorem tlb_setTlb_other (s : State) (tb : Bool) (l : List TlbEntry) :
    (s.setTlb (tlbSide tb) l).tlb (tlbSide (!tb)) = s.tlb (tlbSide (!tb)) := by
  cases tb <;> rfl

theorem tlbFind_setTlb (s : State) (side : TlbSide) (l : List TlbEntry) (seg ofs : Word) :
    (s.setTlb side l).tlbFind side seg ofs = sortedFind entryKey (tlbKey seg (vpnOf ofs)) l := by
  unfold State.tlbFind
  rw [tlb_setTlb]

/-- The entry of a page after one is put in its place is found. -/
theorem tlbFind_insert_self (s : State) (side : TlbSide) {e : TlbEntry} {seg ofs : Word} (hseg : e.seg = seg)
    (hvpn : e.vpn = vpnOf ofs) :
    (s.setTlb side (sortedInsert entryKey e (s.tlb side))).tlbFind side seg ofs = some e := by
  subst hseg
  rw [tlbFind_setTlb, sortedFind_sortedInsert, if_pos (by rw [entryKey, hvpn])]

/-- The other pages' entries are as before. -/
theorem tlbFind_insert_other (s : State) (side : TlbSide) {e : TlbEntry} {seg ofs seg' ofs' : Word}
    (hseg : e.seg = seg) (hvpn : e.vpn = vpnOf ofs) (h : (seg', vpnOf ofs') ≠ (seg, vpnOf ofs)) :
    (s.setTlb side (sortedInsert entryKey e (s.tlb side))).tlbFind side seg' ofs' = s.tlbFind side seg' ofs' := by
  have hkey : tlbKey seg' (vpnOf ofs') ≠ entryKey e := by
    intro hk
    obtain ⟨h1, h2⟩ := tlbKey_inj hk
    exact h (by rw [h1, h2, hseg, hvpn])
  rw [tlbFind_setTlb, sortedFind_sortedInsert, if_neg hkey]
  rfl

/-- The entry ITLB.A fills has the tag of the page. -/
theorem tlbFind_getD_tag (s : State) (side : TlbSide) (seg ofs : Word) :
    ((s.tlbFind side seg ofs).getD (freshEntry seg (vpnOf ofs))).seg = seg ∧
      ((s.tlbFind side seg ofs).getD (freshEntry seg (vpnOf ofs))).vpn = vpnOf ofs := by
  cases h : s.tlbFind side seg ofs with
  | none => exact ⟨rfl, rfl⟩
  | some e => exact tlbFind_tag h

/-- What ITLB.A does to the TLB it names (20_memory.md R77). -/
theorem tlbInsertAddr_spec (s : State) (tb : Bool) (sid x w : Word) :
    ∃ l, s.tlbInsertAddr (tlbSide tb) sid x w = s.setTlb (tlbSide tb) l ∧
      (∃ e, (s.setTlb (tlbSide tb) l).tlbFind (tlbSide tb) sid x = some e ∧ e.seg = sid ∧ e.vpn = vpnOf x ∧
        e.v = false ∧ e.ppn = fld w 0 (32 - Config.pageBits) ∧
        ∀ e0, s.tlbFind (tlbSide tb) sid x = some e0 →
          e = { e0 with v := false, ppn := fld w 0 (32 - Config.pageBits) }) ∧
      ∀ sid' x', (sid', vpnOf x') ≠ (sid, vpnOf x) →
        (s.setTlb (tlbSide tb) l).tlbFind (tlbSide tb) sid' x' = s.tlbFind (tlbSide tb) sid' x' := by
  obtain ⟨hseg, hvpn⟩ := tlbFind_getD_tag s (tlbSide tb) sid x
  refine ⟨_, tlbInsertAddr_eq .., ⟨_, tlbFind_insert_self s _ hseg hvpn, hseg, hvpn, rfl, rfl, fun e0 h0 => ?_⟩,
    fun sid' x' h => tlbFind_insert_other s _ hseg hvpn h⟩
  rw [h0]
  rfl

/-- What ITLB.P does to the TLB it names (20_memory.md R77). -/
theorem tlbInsertProt_spec (s : State) (tb : Bool) (sid x w : Word) :
    ∃ l, s.tlbInsertProt (tlbSide tb) sid x w = s.setTlb (tlbSide tb) l ∧
      (∀ e, s.tlbFind (tlbSide tb) sid x = some e → (s.setTlb (tlbSide tb) l).tlbLookup (tlbSide tb) sid x =
        some { e with t := bit w 1, d := bit w 2, b := bit w 3, x := bit w 4, ar := fld w 12 4,
                      pid := fld w 16 15, v := true }) ∧
      (s.tlbFind (tlbSide tb) sid x = none → l = s.tlb (tlbSide tb)) ∧
      ∀ sid' x', (sid', vpnOf x') ≠ (sid, vpnOf x) →
        (s.setTlb (tlbSide tb) l).tlbFind (tlbSide tb) sid' x' = s.tlbFind (tlbSide tb) sid' x' := by
  unfold State.tlbInsertProt
  cases h : s.tlbFind (tlbSide tb) sid x with
  | none =>
    have hsame : s = s.setTlb (tlbSide tb) (s.tlb (tlbSide tb)) := by cases tb <;> rfl
    refine ⟨_, hsame, ?_, fun _ => rfl, fun sid' x' _ => ?_⟩
    · rintro e ⟨⟩
    · rw [← hsame]
  | some e =>
    obtain ⟨hseg, hvpn⟩ := tlbFind_tag h
    refine ⟨_, rfl, ?_, ?_, fun sid' x' hne => tlbFind_insert_other s _ hseg hvpn hne⟩
    · rintro e0 ⟨⟩
      refine (congrArg (Option.filter _) (tlbFind_insert_self s _ (seg := sid) (ofs := x) ?_ ?_)).trans rfl
      · exact hseg
      · exact hvpn
    · rintro ⟨⟩

/-- Settles O50: the TLB replaced by the one with the entry, and the frame. -/
theorem itlbResult : Obligations.ItlbResult := by
  intro r b tb sr s x sid w hx hxb hsid hw
  have hsreg : s.readSr ((sr.setWidth 4).setWidth 3) = sid := by rw [segReg_setWidth, hsid]
  subst hxb hw
  constructor
  · obtain ⟨l, hl, ⟨e, hfind, hseg, hvpn, hv, hppn, hkept⟩, hother⟩ :=
      tlbInsertAddr_spec s tb sid (s.readGr b) (s.readGr r)
    refine ⟨_, conclude_privileged_ok hx _ _, ?_⟩
    rw [hsreg, hl]
    refine ⟨?_, ⟨e, hfind, hseg, hvpn, hv, hppn, hkept⟩, hother, tlb_setTlb_other s tb l, rfl,
      ((frame_refl _ s).setTlb rfl _ l).advance⟩
    show ((s.setTlb (tlbSide tb) l).tlbFind (tlbSide tb) sid (s.readGr b)).filter (fun e => e.v) = none
    rw [hfind, Option.filter, if_neg (by simp [hv])]
  · obtain ⟨l, hl, hprot, hnone, hother⟩ := tlbInsertProt_spec s tb sid (s.readGr b) (s.readGr r)
    refine ⟨_, conclude_privileged_ok hx _ _, ?_⟩
    rw [hsreg, hl]
    exact ⟨hprot, fun h => (tlb_setTlb s _ l).trans (hnone h), hother, tlb_setTlb_other s tb l, rfl,
      ((frame_refl _ s).setTlb rfl _ l).advance⟩

/-- Settles O51: the list without the page's tag. -/
theorem ptlbResult : Obligations.PtlbResult := by
  intro b tb sr s x sid hx hxb hsid
  have hsreg : s.readSr ((sr.setWidth 4).setWidth 3) = sid := by rw [segReg_setWidth, hsid]
  subst hxb
  refine ⟨_, conclude_privileged_ok hx _ _, ?_⟩
  rw [hsreg]
  refine ⟨?_, fun sid' x' h => ?_, tlb_setTlb_other s tb _, rfl, ((frame_refl _ s).setTlb rfl _ _).advance⟩
  · exact (tlbFind_setTlb s _ _ sid _).trans ((sortedFind_sortedErase _ _ _).trans (if_pos rfl))
  · have hkey : tlbKey sid' (vpnOf x') ≠ tlbKey sid (vpnOf (s.readGr b)) := by
      intro hk
      obtain ⟨h1, h2⟩ := tlbKey_inj hk
      exact h (by rw [h1, h2])
    exact (tlbFind_setTlb s _ _ sid' x').trans ((sortedFind_sortedErase _ _ _).trans (if_neg hkey))

/-- The trap of a PCA whose page has no entry in the TLB named. -/
def pcaMiss (tb : Bool) : TrapId := if tb then .nonAccessDataTlbMiss else .nonAccessInstrTlbMiss

/-- With coherent caches a PCA goes on where its address has a translation. -/
theorem purgeCache_ok {s : State} {tb : Bool} {seg ofs p : Word} (f : Bool)
    (h : s.nonAccessAddr (tlbSide tb) (pcaMiss tb) seg ofs = .ok p) : purgeCache tb f seg ofs s = .ok s.advance := by
  cases tb with
  | true =>
    replace h : s.nonAccessAddr .data .nonAccessDataTlbMiss seg ofs = .ok p := h
    simp [purgeCache, h]
  | false =>
    replace h : s.nonAccessAddr .instr .nonAccessInstrTlbMiss seg ofs = .ok p := h
    simp [purgeCache, h]

theorem purgeCache_error {s : State} {tb : Bool} {seg ofs : Word} {e : Stop} (f : Bool)
    (h : s.nonAccessAddr (tlbSide tb) (pcaMiss tb) seg ofs = .error e) : purgeCache tb f seg ofs s = .error e := by
  cases tb with
  | true =>
    replace h : s.nonAccessAddr .data .nonAccessDataTlbMiss seg ofs = .error e := h
    simp [purgeCache, h]
  | false =>
    replace h : s.nonAccessAddr .instr .nonAccessInstrTlbMiss seg ofs = .error e := h
    simp [purgeCache, h]

/-- Settles O52: the three answers of `State.nonAccessAddr`. -/
theorem pcaResult : Obligations.PcaResult := by
  intro b tb f sr s x sid hx hxb hsid
  have hexec : exec (.pca tb f (sr.setWidth 4) b) s = conclude s (purgeCache tb f sid x s) := by
    subst hxb hsid
    refine (congrArg (conclude s) (privileged_priv hx _ _)).trans ?_
    rw [segReg_setWidth]
  rw [hexec]
  refine ⟨fun h => ?_, fun hs he => ?_⟩
  · have hok : ∃ p, s.nonAccessAddr (tlbSide tb) (pcaMiss tb) sid x = .ok p := by
      by_cases hs : sid = 0#32
      · exact ⟨_, nonAccessAddr_zero hs⟩
      · obtain ⟨e, he⟩ := Option.ne_none_iff_exists'.mp (h.resolve_left hs)
        exact ⟨_, nonAccessAddr_entry hs he⟩
    obtain ⟨p, hp⟩ := hok
    rw [purgeCache_ok f hp]
    exact ⟨_, rfl, rfl, frame_advance s⟩
  · rw [purgeCache_error f (nonAccessAddr_miss hs he)]
    exact tookTrap_conclude rfl

end Sys2Proof.Machine

/-! PROOFS. The computational instructions (43_computational.md R190 to R213) on the operands they run on: exact
arithmetic and what its flags say, the bits of a logical result, the comparisons, and bit fields. -/

namespace Sys2Proof.Machine

/-! Arithmetic. -/

/-- The exact arithmetic of an operation (43_computational.md R195). -/
def ArithOp.fn : ArithOp → Word → Word → Bool → ArithResult
  | .add | .addc => addExact
  | .sub | .subc => subExact

/-- ST.CB takes part. -/
def ArithOp.carryIn : ArithOp → Bool
  | .add | .sub => false
  | .addc | .subc => true

/-- ADD, ADDC, SUB and SUBC have one meaning in every operand form. -/
theorem exec_arithInstr (op : ArithOp) (r : GReg) (o l : Bool) (x : Operand) (s : State) :
    exec (arithInstr op r o l x) s =
      conclude s (arith op.fn id op.carryIn (encode (arithInstr op r o l x)) r o l x s) := by
  cases op <;> cases x <;> rfl

/-- The result and its flags come from the exact values. -/
theorem fn_eq_arithResult (op : ArithOp) (a b : Word) (cb : Bool) :
    op.fn a b (op.carryIn && cb) = arithResult (exactUnsigned op a b cb) (exactSigned op a b cb) := by
  cases op <;> simp [ArithOp.fn, ArithOp.carryIn, addExact, subExact, exactUnsigned, exactSigned]

theorem arithResult_carry (u i : Int) : (arithResult u i).carry = true ↔ ¬ FitsUnsigned u := by
  simp only [arithResult, decide_eq_true_eq, FitsUnsigned]
  omega

theorem arithResult_overflow (u i : Int) : (arithResult u i).overflow = true ↔ ¬ FitsSigned i := by
  simp only [arithResult, decide_eq_true_eq, FitsSigned]
  omega

/-- What is tested with O: the unsigned overflow with L, the signed one without. -/
theorem tested_iff_overflows (op : ArithOp) (l : Bool) (a b : Word) (cb : Bool) :
    (if l then (op.fn a b (op.carryIn && cb)).carry else (op.fn a b (op.carryIn && cb)).overflow) = true ↔
      Overflows op l a b cb := by
  rw [fn_eq_arithResult]
  cases l with
  | true => exact arithResult_carry ..
  | false => exact arithResult_overflow ..

/-- The state after an arithmetic instruction that does not trap. -/
def State.arithDone (s : State) (op : ArithOp) (l : Bool) (r : GReg) (a b : Word) : State :=
  (if l then s else s.setStatusBit stCb (op.fn a b (op.carryIn && s.cbBit)).carry).result r
    (op.fn a b (op.carryIn && s.cbBit)).value

theorem arith_ok {op : ArithOp} {r : GReg} {o l : Bool} {x : Operand} {a b : Word} {s : State} (instr : Word)
    (hx : OperandsAre s r x a b) (h : ¬ (o = true ∧ Overflows op l a b s.cbBit)) :
    arith op.fn id op.carryIn instr r o l x s = .ok (s.arithDone op l r a b) := by
  unfold arith
  rw [operand_ok instr hx]
  refine if_neg (fun hc => h ?_)
  obtain ⟨ho, htest⟩ := Bool.and_eq_true_iff.mp hc
  exact ⟨ho, (tested_iff_overflows ..).mp htest⟩

theorem arith_overflow {op : ArithOp} {r : GReg} {l : Bool} {x : Operand} {a b : Word} {s : State} (instr : Word)
    (hx : OperandsAre s r x a b) (h : Overflows op l a b s.cbBit) :
    arith op.fn id op.carryIn instr r true l x s = raiseInstr .overflow instr := by
  unfold arith
  rw [operand_ok instr hx]
  exact if_pos ((tested_iff_overflows ..).mpr h)

/-- The carry bit after one is set. -/
theorem cbBit_setStatusBit (s : State) (c : Bool) : (s.setStatusBit stCb c).cbBit = c := by
  show stBit (setStBit s.st stCb c) stCb = c
  rw [stBit_setStBit _ (by decide) (by decide), if_pos rfl]

theorem cbBit_arithDone (s : State) (op : ArithOp) (l : Bool) (r : GReg) (a b : Word) :
    (s.arithDone op l r a b).cbBit = true ↔
      if l then s.cbBit = true else ¬ FitsUnsigned (exactUnsigned op a b s.cbBit) := by
  cases l with
  | true => exact Iff.rfl
  | false =>
    rw [show (s.arithDone op false r a b).cbBit = _ from cbBit_setStatusBit s _, fn_eq_arithResult]
    exact arithResult_carry ..

theorem frame_arithDone (s : State) (op : ArithOp) (l : Bool) (r : GReg) (a b : Word) :
    Frame { gr := [r], status := [12] } s (s.arithDone op l r a b) := by
  refine Frame.result ?_ (by simp) _
  cases l with
  | true => exact frame_refl _ s
  | false => exact (frame_refl _ s).setStatusBit (by simp [stCb]) (by decide) _

theorem advances_arithDone (s : State) (op : ArithOp) (l : Bool) (r : GReg) (a b : Word) :
    Advances s (s.arithDone op l r a b) := by
  cases l <;> rfl

theorem readGr_arithDone (s : State) (op : ArithOp) (l : Bool) (r : GReg) (a b : Word) :
    (s.arithDone op l r a b).readGr r =
      if r = 0#4 then 0#32 else BitVec.ofInt 32 (exactUnsigned op a b s.cbBit) := by
  unfold State.arithDone
  rw [State.readGr_result, if_pos rfl, fn_eq_arithResult]
  rfl

/-- Settles O17: `State.arithDone`. -/
theorem arithResultHolds : Obligations.ArithResult := by
  intro op r o l x a b s hx h
  refine ⟨_, ?_, readGr_arithDone s op l r a b, cbBit_arithDone s op l r a b, advances_arithDone s op l r a b,
    frame_arithDone s op l r a b⟩
  rw [exec_arithInstr, arith_ok _ hx h, conclude_ok]

/-- Settles O18: the target register plays no part in the test. -/
theorem arithOverflowTrap : Obligations.ArithOverflowTrap := by
  intro op r l x a b s hx h
  rw [exec_arithInstr, arith_overflow _ hx h]
  exact tookTrap_conclude rfl

/-! SHLA. -/

/-- A shift to the left multiplies, on the number with or without sign alike. -/
theorem ofInt_shift (a : Word) (l : Bool) (n : Nat) :
    BitVec.ofInt 32 ((if l then (a.toNat : Int) else a.toInt) * 2 ^ n) = a <<< n := by
  have ha : BitVec.ofInt 32 (if l then (a.toNat : Int) else a.toInt) = a := by
    cases l <;> simp
  have hpow : BitVec.ofInt 32 (2 ^ n) = BitVec.twoPow 32 n := by
    rw [show (2 : Int) ^ n = ((2 ^ n : Nat) : Int) by simp, BitVec.ofInt_natCast]
    apply BitVec.eq_of_toNat_eq
    simp
  rw [BitVec.ofInt_mul, ha, hpow, BitVec.shiftLeft_eq_mul_twoPow]

/-- A number that 32 bits hold is what they hold. -/
theorem toNat_ofInt_of_fits {p : Int} (h : FitsUnsigned p) : ((BitVec.ofInt 32 p).toNat : Int) = p := by
  obtain ⟨h0, h1⟩ := h
  rw [BitVec.toNat_ofInt]
  omega

theorem toInt_ofInt_of_fits {p : Int} (h : FitsSigned p) : (BitVec.ofInt 32 p).toInt = p := by
  obtain ⟨h0, h1⟩ := h
  rw [BitVec.toInt_ofInt]
  exact Int.bmod_eq_of_le (by omega) (by omega)

/-- The shift alone leaves the range. -/
theorem shift_leaves_unsigned_iff {a : Word} {n : Nat} {p : Int} (hp : p = (a.toNat : Int) * 2 ^ n) :
    2 ^ 32 ≤ a.toNat * 2 ^ n ↔ ¬ FitsUnsigned p := by
  have hp' : p = ((a.toNat * 2 ^ n : Nat) : Int) := by rw [hp]; push_cast; rfl
  unfold FitsUnsigned
  omega

theorem shift_leaves_signed_iff {p : Int} : p < -(2 ^ 31 : Int) ∨ (2 ^ 31 : Int) ≤ p ↔ ¬ FitsSigned p := by
  unfold FitsSigned
  omega

/-- The two parts of the overflow of SHLA: the shift, and the sum of the shifted value. -/
theorem shlaOverflow_iff {l : Bool} {sa : BitVec 2} {a b : Word} {p q : Int}
    (hp : p = (if l then (a.toNat : Int) else a.toInt) * 2 ^ sa.toNat)
    (hq : q = if l then (b.toNat : Int) else b.toInt) :
    shlaOverflow l sa a b = true ↔
      ¬ (if l then FitsUnsigned p ∧ FitsUnsigned (p + q) else FitsSigned p ∧ FitsSigned (p + q)) := by
  have hshift : a <<< sa.toNat = BitVec.ofInt 32 p := by rw [hp, ofInt_shift]
  unfold shlaOverflow addExact
  rw [hshift]
  cases l with
  | true =>
    simp only [if_true, Bool.or_eq_true, arithResult_carry, decide_eq_true_eq, Bool.toNat_false, Nat.cast_zero,
      Int.add_zero] at *
    rw [shift_leaves_unsigned_iff hp, not_and_or, or_congr_right']
    intro hfits
    rw [toNat_ofInt_of_fits (not_not.mp hfits), hq]
  | false =>
    simp only [Bool.false_eq_true, if_false, Bool.or_eq_true, arithResult_overflow, decide_eq_true_eq,
      Bool.toNat_false, Nat.cast_zero, Int.add_zero] at *
    rw [← hp, shift_leaves_signed_iff, not_and_or, or_congr_right']
    intro hfits
    rw [toInt_ofInt_of_fits (not_not.mp hfits), hq]

/-- SHLA adds in the ring of words, so that its result is that of the exact values. -/
theorem shla_value {l : Bool} {sa : BitVec 2} {a b : Word} {p q : Int}
    (hp : p = (if l then (a.toNat : Int) else a.toInt) * 2 ^ sa.toNat)
    (hq : q = if l then (b.toNat : Int) else b.toInt) :
    (a <<< sa.toNat) + b = BitVec.ofInt 32 (p + q) := by
  rw [BitVec.ofInt_add, hp, ofInt_shift, hq]
  cases l <;> simp

/-- Settles O19: the two branches of `execShla`. -/
theorem shlaResult : Obligations.ShlaResult := by
  intro r a b l o sa s p q hp hq
  have hiff := shlaOverflow_iff hp hq
  refine ⟨fun h => ?_, fun ho hfits => ?_⟩
  · have hno : ¬ (o && shlaOverflow l sa (s.readGr a) (s.readGr b)) = true := by
      rw [Bool.and_eq_true, hiff]
      rintro ⟨rfl, hfits⟩
      exact hfits (h.resolve_left (by decide))
    refine ⟨_, if_neg hno, ?_⟩
    rw [shla_value hp hq]
    exact result_spec s r _
  · have htrap : (o && shlaOverflow l sa (s.readGr a) (s.readGr b)) = true := by
      rw [Bool.and_eq_true, hiff]
      exact ⟨ho, hfits⟩
    rw [show exec (.shla r l o sa a b) s = _ from if_pos htrap]
    exact tookTrap_conclude rfl

/-! Logic and comparisons. -/

/-- The word of a logical operation (43_computational.md R196 to R198). -/
def logicValue (op : LogicOp) (n c : Bool) (a b : Word) : Word :=
  if n then ~~~(op.fn a (if c then ~~~b else b)) else op.fn a (if c then ~~~b else b)

theorem logical_ok {op : LogicOp} {r : GReg} {n c : Bool} {x : Operand} {a b : Word} {s : State} (instr : Word)
    (hx : OperandsAre s r x a b) :
    logical op.fn instr r n c x s = .ok (s.result r (logicValue op n c a b)) := by
  unfold logical
  rw [operand_ok instr hx]
  rfl

/-- The operation on two bits of AND, OR and XOR. -/
def LogicOp.onBits : LogicOp → Bool → Bool → Bool
  | .and, x, y => x && y
  | .or, x, y => x || y
  | .xor, x, y => x ^^ y

theorem getLsbD_logicFn (op : LogicOp) (a b : Word) (k : Nat) :
    (op.fn a b).getLsbD k = op.onBits (a.getLsbD k) (b.getLsbD k) := by
  cases op <;> simp [LogicOp.fn, LogicOp.onBits]

/-- Complementing where asked, bit by bit. -/
theorem getLsbD_ite_not (c : Bool) (b : Word) {k : Nat} (hk : k < 32) :
    (if c then ~~~b else b).getLsbD k = (b.getLsbD k ^^ c) := by
  cases c <;> simp [hk]

theorem getLsbD_logicValue (op : LogicOp) (n c : Bool) (a b : Word) {k : Nat} (hk : k < 32) :
    (logicValue op n c a b).getLsbD k = logicBit op n c (a.getLsbD k) (b.getLsbD k) := by
  unfold logicValue logicBit
  rw [getLsbD_ite_not n _ hk, getLsbD_logicFn, getLsbD_ite_not c b hk]
  cases op <;> rfl

/-- Settles O20: the bits of `logicValue`. -/
theorem logicResult : Obligations.LogicResult := by
  intro op r n c x a b s hx
  obtain ⟨hread, hadv, hframe⟩ := result_spec s r (logicValue op n c a b)
  refine ⟨_, ?_, fun k hk => ?_, hadv, hframe⟩
  · rw [exec_logicInstr, logical_ok _ hx, conclude_ok]
  · rw [hread]
    by_cases hr : r = 0#4
    · simp [hr]
    · rw [if_neg hr, if_neg hr, getLsbD_logicValue op n c a b hk]

theorem compareOp_ok {holds : Word → Word → Bool} {r : GReg} {x : Operand} {a b : Word} {s : State} (instr : Word)
    (hx : OperandsAre s r x a b) : compareOp holds instr r x s = .ok (s.result r (boolWord (holds a b))) := by
  unfold compareOp
  rw [operand_ok instr hx]

theorem two_bits_cases (v : BitVec 2) : v = 0#2 ∨ v = 1#2 ∨ v = 2#2 ∨ v = 3#2 := by
  decide +revert

/-- The comparison each condition number names. -/
theorem compareFn_iff (signed : Bool) (cond : BitVec 2) (a b : Word) :
    compareFn signed cond a b = true ↔ Compares signed cond a b := by
  rcases two_bits_cases cond with rfl | rfl | rfl | rfl <;> cases signed <;>
    simp [compareFn, cmpSigned, cmpUnsigned, Compares]

/-- Settles O21: one or zero as the comparison holds. -/
theorem compareResult : Obligations.CompareResult := by
  intro signed r cond x a b s hx
  have hexec : exec (compareInstr signed r cond x) s = .next (s.result r (boolWord (compareFn signed cond a b))) := by
    rw [exec_compareInstr, compareOp_ok _ hx, conclude_ok]
  refine ⟨_, hexec, fun h => ?_, fun h => ?_⟩
  · rw [(compareFn_iff ..).mpr h]
    exact result_spec s r 1#32
  · rw [Bool.eq_false_iff.mpr (mt (compareFn_iff ..).mp h)]
    exact result_spec s r 0#32

/-! Bit fields. -/

/-- The shift amount of a bit field is the word's or SHAMT's. -/
theorem fieldShift_eq (s : State) (av : Bool) (pos : BitVec 5) :
    s.fieldShift av pos = if av then (s.readCr 2#5).toNat else pos.toNat := rfl

/-- Settles O26: the check comes before the register is read. -/
theorem bitFieldStops : Obligations.BitFieldStops := by
  intro r b x av len pos v s h
  have hrefusal : fieldRefusal len.toNat (s.fieldShift av pos) = some .bitFieldBeyondWord := by
    rw [fieldRefusal_eq, fieldShift_eq, if_pos h]
  refine ⟨?_, ?_, ?_⟩
  · show execExtr r x av len pos b s = _
    simp only [execExtr, hrefusal]
  · show deposit r x av len pos _ s = _
    simp only [deposit, hrefusal]
  · show deposit r x av len pos _ s = _
    simp only [deposit, hrefusal]

/-- A field that fits the word is not refused. -/
theorem fieldRefusal_none {len sh : Nat} (h : sh + len ≤ 32) : fieldRefusal len sh = none := by
  rw [fieldRefusal_eq, if_neg (by omega)]

/-- The field of a word before it is sign-extended. -/
theorem getLsbD_field (x : Word) (len sh k : Nat) :
    ((x >>> sh) &&& fieldMask len 0).getLsbD k = (decide (k < len) && x.getLsbD (k + sh)) := by
  simp only [BitVec.getLsbD_and, BitVec.getLsbD_ushiftRight, getLsbD_fieldMask, Nat.zero_le, true_and, Nat.zero_add]
  rw [Bool.and_comm, Nat.add_comm sh k]
  by_cases hk : k < 32
  · simp [hk]
  · simp [BitVec.getLsbD_of_ge x (k + sh) (by omega)]

/-- A bit of an extracted field: the source's inside, the field's leftmost outside where S asks for it. -/
theorem getLsbD_extractField (x : Word) (sg : Bool) (len sh : Nat) {k : Nat} (hk : k < 32) :
    (extractField x sg len sh).getLsbD k =
      if k < len then x.getLsbD (k + sh) else sg && decide (0 < len) && x.getLsbD (sh + len - 1) := by
  unfold extractField
  dsimp only
  rw [getLsbD_field]
  by_cases hlen : 0 < len
  · rw [show decide (len - 1 < len) = true by simp [hlen], show len - 1 + sh = sh + len - 1 by omega, Bool.true_and]
    cases hsign : sg && decide (0 < len) && x.getLsbD (sh + len - 1) with
    | true =>
      rw [if_pos rfl, BitVec.getLsbD_or, getLsbD_field, BitVec.getLsbD_not, getLsbD_fieldMask]
      by_cases h : k < len <;> simp [h, hk]
    | false =>
      rw [if_neg Bool.false_ne_true, getLsbD_field]
      by_cases h : k < len <;> simp [h]
  · have hempty : ¬ k < len := by omega
    simp only [hlen, hempty, decide_false, Bool.and_false, Bool.false_and, Bool.false_eq_true, if_false,
      getLsbD_field]

/-- Settles O24: the bits of `extractField`. -/
theorem extrResult : Obligations.ExtrResult := by
  intro r b sg av len pos s sh hsh hfits
  have hexec : exec (.extr r sg av len pos b) s =
      .next (s.result r (extractField (s.readGr b) sg len.toNat sh)) := by
    show execExtr r sg av len pos b s = _
    simp only [execExtr, fieldShift_eq, ← hsh, fieldRefusal_none hfits]
  obtain ⟨hread, hadv, hframe⟩ := result_spec s r (extractField (s.readGr b) sg len.toNat sh)
  refine ⟨_, hexec, fun k hk => ?_, hadv, hframe⟩
  rw [hread]
  by_cases hr : r = 0#4
  · simp [hr]
  · rw [if_neg hr, if_neg hr, getLsbD_extractField _ sg len.toNat sh hk]

/-- A bit of a word after a field is put into it. -/
theorem getLsbD_depositField (base src : Word) (len sh : Nat) {k : Nat} (hk : k < 32) :
    (depositField base src len sh).getLsbD k =
      if sh ≤ k ∧ k < sh + len then src.getLsbD (k - sh) else base.getLsbD k := by
  unfold depositField
  simp only [BitVec.getLsbD_or, BitVec.getLsbD_and, BitVec.getLsbD_not, BitVec.getLsbD_shiftLeft, getLsbD_fieldMask,
    hk, true_and]
  by_cases h : sh ≤ k ∧ k < sh + len
  · simp [h, show ¬ k < sh by omega]
  · simp [h]

/-- DEP of a source that fits, with the bits it leaves: those of the field are the source's. -/
theorem deposit_spec {r : GReg} {z av : Bool} {len pos : BitVec 5} {src : Word} {s : State} {sh : Nat}
    (hsh : sh = if av then (s.readCr 2#5).toNat else pos.toNat) (hfits : sh + len.toNat ≤ 32) :
    ∃ t, deposit r z av len pos src s = .next t ∧
      (∀ k, k < 32 → (t.readGr r).getLsbD k =
        if r = 0#4 then false
        else if sh ≤ k ∧ k < sh + len.toNat then src.getLsbD (k - sh)
        else !(z && decide (0 < len.toNat)) && (s.readGr r).getLsbD k) ∧
      Advances s t ∧ Frame { gr := [r] } s t := by
  obtain ⟨hread, hadv, hframe⟩ := result_spec s r
    (depositField (if z && decide (0 < len.toNat) then 0#32 else s.readGr r) src len.toNat sh)
  refine ⟨_, ?_, fun k hk => ?_, hadv, hframe⟩
  · simp only [deposit, fieldShift_eq, ← hsh, fieldRefusal_none hfits]
  · rw [hread]
    by_cases hr : r = 0#4
    · simp [hr]
    · rw [if_neg hr, if_neg hr, getLsbD_depositField _ src _ sh hk]
      congr 1
      cases z && decide (0 < len.toNat) <;> simp

/-- Settles O25: `deposit` of either source. -/
theorem depResult : Obligations.DepResult := by
  intro r z av len pos s sh i src hsh hfits hi
  obtain ⟨t, hdeposit, hspec⟩ := deposit_spec (r := r) (z := z) (src := src) hsh hfits
  refine ⟨t, .trans ?_ hdeposit, hspec⟩
  rcases hi with ⟨b, rfl, rfl⟩ | ⟨v, rfl, rfl⟩
  · rfl
  · exact congrArg (fun x => deposit r z av len pos x s) (BitVec.ofNat_toNat ..).symm

end Sys2Proof.Machine

/-! PROOFS. Loads, stores and the other accesses to memory (40_memory_reference.md, 20_memory.md R53 to R86): one
equation for the loads and one for the stores of every width and form, what they leave, the traps of a data access in
their order, and the places with nothing behind them. -/

namespace Sys2Proof.Machine

/-! The meaning of each access, once. -/

theorem extended_on {s : State} (h : s.dBit = true) (w : Word) (r : Except Stop State) : extended s w r = r := by
  simp [extended, h]

theorem extended_off {s : State} (h : s.dBit = false) (w : Word) (r : Except Stop State) :
    extended s w r = raiseInstr .illegalInstruction w := by
  simp [extended, h]

/-- The loads of every width and form are one operation, where the form is enabled. -/
theorem exec_loadInstr {w : Width} {r : GReg} {m : Bool} {b : GReg} {f : LoadForm} {s : State} (h : f.enabled s) :
    exec (loadInstr w r m b f) s =
      conclude s (load (encode (loadInstr w r m b f)) w r m b (f.disp s) (f.segId s) s) := by
  cases f with
  | logicalIdx | logicalOfs => cases w <;> rfl
  | extendedOfs | extendedIdx => cases w <;> exact congrArg (conclude s) (extended_on h _ _)

/-- And the stores. -/
theorem exec_storeInstr {w : Width} {r : GReg} {m : Bool} {b : GReg} {d : BitVec 12} {seg : Option (BitVec 2)}
    {s : State} (h : seg = none ∨ s.dBit = true) :
    exec (storeInstr w r m b d seg) s =
      conclude s (store (encode (storeInstr w r m b d seg)) w r m b (lse d) (storeSegId seg s) s) := by
  cases seg with
  | none => cases w <;> rfl
  | some g =>
    have hd : s.dBit = true := h.resolve_left (by simp)
    cases w <;> exact congrArg (conclude s) (extended_on hd _ _)

/-- A load whose read gives a value. -/
theorem load_ok {s : State} {instr : Word} {w : Width} {r : GReg} {m : Bool} {b : GReg} {disp x v : Word}
    {segOf : Word → Word} (hx : x = accessOfs m b disp s) (h : s.memRead instr (segOf x) x w = .ok v) :
    load instr w r m b disp segOf s =
      .ok ((s.writeBase b (effAddr m (s.readGr b) disp).newBase).result r v) := by
  rw [hx, ← effAddr_ofs] at h
  simp only [load, h]

theorem load_error {s : State} {instr : Word} {w : Width} {r : GReg} {m : Bool} {b : GReg} {disp x : Word} {e : Stop}
    {segOf : Word → Word} (hx : x = accessOfs m b disp s) (h : s.memRead instr (segOf x) x w = .error e) :
    load instr w r m b disp segOf s = .error e := by
  rw [hx, ← effAddr_ofs] at h
  simp only [load, h]

theorem store_ok {s t : State} {instr : Word} {w : Width} {r : GReg} {m : Bool} {b : GReg} {disp x : Word}
    {segOf : Word → Word} (hx : x = accessOfs m b disp s)
    (h : s.memWrite instr (segOf x) x w (s.readGr r) = .ok t) :
    store instr w r m b disp segOf s = .ok (t.writeBase b (effAddr m (s.readGr b) disp).newBase).advance := by
  rw [hx, ← effAddr_ofs] at h
  simp only [store, h]

theorem store_error {s : State} {instr : Word} {w : Width} {r : GReg} {m : Bool} {b : GReg} {disp x : Word} {e : Stop}
    {segOf : Word → Word} (hx : x = accessOfs m b disp s)
    (h : s.memWrite instr (segOf x) x w (s.readGr r) = .error e) :
    store instr w r m b disp segOf s = .error e := by
  rw [hx, ← effAddr_ofs] at h
  simp only [store, h]

/-! What a completed access leaves. -/

theorem newBase_isSome {m : Bool} {base disp : Word} (h : (effAddr m base disp).newBase.isSome = true) : m = true := by
  rw [effAddr_newBase] at h
  cases m
  · cases h
  · rfl

/-- The state a load leaves: the loaded value wins over the modified base. -/
def State.loaded (s : State) (m : Bool) (b : GReg) (disp : Word) (r : GReg) (v : Word) : State :=
  (s.writeBase b (effAddr m (s.readGr b) disp).newBase).result r v

theorem loaded_spec (s : State) (m : Bool) (b : GReg) (disp : Word) (r : GReg) (v : Word) :
    (s.loaded m b disp r v).readGr r = (if r = 0#4 then 0#32 else v) ∧
      (b ≠ r → (s.loaded m b disp r v).readGr b = newBaseValue m b disp s) ∧ Advances s (s.loaded m b disp r v) ∧
      Frame { gr := if m then [r, b] else [r] } s (s.loaded m b disp r v) := by
  unfold State.loaded
  refine ⟨?_, fun hne => ?_, rfl, ((frame_refl _ s).writeBase (fun h => ?_)).result ?_ v⟩
  · rw [State.readGr_result, if_pos rfl]
  · rw [State.readGr_result, if_neg hne, readGr_writeBase_effAddr s s m b b disp (fun _ => rfl), if_pos rfl]
  · simp [newBase_isSome h]
  · cases m <;> simp

/-- The state a store leaves. -/
def State.stored (s : State) (p : Word) (w : Width) (v : Word) (m : Bool) (b : GReg) (disp : Word) : State :=
  ((s.storeBytes p w v).writeBase b (effAddr m (s.readGr b) disp).newBase).advance

theorem stored_spec (s : State) (p : Word) (w : Width) (v : Word) (m : Bool) (b : GReg) (disp : Word) :
    (s.stored p w v m b disp).mem = s.mem.write p.toNat v w ∧
      (s.stored p w v m b disp).readGr b = newBaseValue m b disp s ∧
      ((s.stored p w v m b disp).lrValid = true ↔ s.lrValid = true ∧
        ¬ (p.toNat < s.lrAddr.toNat + 4 ∧ s.lrAddr.toNat < p.toNat + accessBytes w)) ∧
      (s.stored p w v m b disp).lrAddr = s.lrAddr ∧ Advances s (s.stored p w v m b disp) ∧
      Frame { gr := if m then [b] else [], reservation := true, caches := true,
              bytes := (p.toNat, accessBytes w) } s (s.stored p w v m b disp) := by
  refine ⟨rfl, ?_, storeBytes_lrValid s p w v, rfl, rfl,
    (((frame_refl _ s).storeBytes rfl rfl v).writeBase (fun h => ?_)).advance⟩
  · refine (readGr_writeBase_effAddr s (s.storeBytes p w v) m b b disp (fun _ => rfl)).trans (if_pos rfl)
  · simp [newBase_isSome h]

/-- Settles O29: `State.loaded` of the value the read gives. -/
theorem loadResult : Obligations.LoadResult := by
  intro w r m b f s x v hf hx hv
  refine ⟨_, ?_, loaded_spec s m b (f.disp s) r v⟩
  rw [exec_loadInstr hf, load_ok hx (memRead_ok _ hv), conclude_ok]
  rfl

/-- A byte of a word as the number's digits. -/
theorem byteOf_eq_ofNat (v : Word) {k : Nat} (hk : k < 4) : byteOf v k = BitVec.ofNat 8 (v.toNat / 2 ^ (8 * (3 - k))) := by
  apply BitVec.eq_of_toNat_eq
  rw [byteOf, fld, BitVec.extractLsb'_toNat, BitVec.toNat_ofNat, Nat.shiftRight_eq_div_pow,
    show 32 - 8 * k - 8 = 8 * (3 - k) by omega]

/-- The bytes of a store: those of the value's right end, the first the most significant. -/
theorem readByte_write_eq_ofNat (m : Memory) (a : Nat) (v : Word) (w : Width) {k : Nat} (hk : k < accessBytes w) :
    (m.write a v w).readByte (a + k) = BitVec.ofNat 8 (v.toNat / 2 ^ (8 * (accessBytes w - 1 - k))) := by
  have hw : accessBytes w ≤ 4 := by cases w <;> decide
  rw [Memory.readByte_write_inside m a k v w hk, byteOf_eq_ofNat v (by omega),
    show 3 - (4 - accessBytes w + k) = accessBytes w - 1 - k by omega]

/-- Settles O30: `State.stored` of GR[r]. -/
theorem storeResult : Obligations.StoreResult := by
  intro w r m b d seg s x p hseg hx hreach hp
  obtain ⟨hmem, hspec⟩ := stored_spec s p w (s.readGr r) m b (lse d)
  refine ⟨_, ?_, fun k hk => ?_, hspec⟩
  · rw [exec_storeInstr hseg, store_ok hx (memWrite_ok _ _ hreach hp), conclude_ok]
    rfl
  · rw [hmem]
    exact readByte_write_eq_ofNat s.mem p.toNat (s.readGr r) w hk

/-! Absolute accesses. -/

theorem loadAbsolute_ok {s : State} {r : GReg} {m : Bool} {b : GReg} {disp x : Word} (instr : Word)
    (hx : x = accessOfs m b disp s) (ha : x.toNat % 4 = 0) {v : Word} (h : s.physRead x .word = .ok v) :
    loadAbsolute instr r m b disp s = .ok (s.loaded m b disp r v) := by
  rw [← effAddr_ofs] at hx
  have hal : aligned (effAddr m (s.readGr b) disp).ofs .word = true := (aligned_iff _ .word).mpr (hx ▸ ha)
  rw [hx] at h
  simp only [loadAbsolute, hal, if_true, h]
  rfl

theorem loadAbsolute_error {s : State} {r : GReg} {m : Bool} {b : GReg} {disp x : Word} (instr : Word)
    (hx : x = accessOfs m b disp s) (ha : x.toNat % 4 = 0) {e : Stop} (h : s.physRead x .word = .error e) :
    loadAbsolute instr r m b disp s = .error e := by
  rw [← effAddr_ofs] at hx
  have hal : aligned (effAddr m (s.readGr b) disp).ofs .word = true := (aligned_iff _ .word).mpr (hx ▸ ha)
  rw [hx] at h
  simp only [loadAbsolute, hal, if_true, h]

theorem loadAbsolute_misaligned {s : State} {r : GReg} {m : Bool} {b : GReg} {disp x : Word} (instr : Word)
    (hx : x = accessOfs m b disp s) (ha : x.toNat % 4 ≠ 0) :
    loadAbsolute instr r m b disp s = raiseData .alignment instr 0#32 x := by
  rw [← effAddr_ofs] at hx
  have hal : ¬ aligned (effAddr m (s.readGr b) disp).ofs .word = true := fun h => ha (hx ▸ (aligned_iff _ .word).mp h)
  simp only [loadAbsolute, if_neg hal, hx]

theorem storeAbsolute_ok {s : State} {r : GReg} {m : Bool} {b : GReg} {disp x : Word} (instr : Word)
    (hx : x = accessOfs m b disp s) (ha : x.toNat % 4 = 0) (hw : Writable x) :
    storeAbsolute instr r m b disp s = .ok (s.stored x .word (s.readGr r) m b disp) := by
  have h := physWrite_ok (s := s) .word (s.readGr r) hw
  rw [← effAddr_ofs] at hx
  have hal : aligned (effAddr m (s.readGr b) disp).ofs .word = true := (aligned_iff _ .word).mpr (hx ▸ ha)
  rw [hx] at h ⊢
  simp only [storeAbsolute, hal, if_true, h]
  rfl

theorem storeAbsolute_error {s : State} {r : GReg} {m : Bool} {b : GReg} {disp x : Word} (instr : Word)
    (hx : x = accessOfs m b disp s) (ha : x.toNat % 4 = 0) {e : Stop}
    (h : s.physWrite x .word (s.readGr r) = .error e) : storeAbsolute instr r m b disp s = .error e := by
  rw [← effAddr_ofs] at hx
  have hal : aligned (effAddr m (s.readGr b) disp).ofs .word = true := (aligned_iff _ .word).mpr (hx ▸ ha)
  rw [hx] at h
  simp only [storeAbsolute, hal, if_true, h]

theorem storeAbsolute_misaligned {s : State} {r : GReg} {m : Bool} {b : GReg} {disp x : Word} (instr : Word)
    (hx : x = accessOfs m b disp s) (ha : x.toNat % 4 ≠ 0) :
    storeAbsolute instr r m b disp s = raiseData .alignment instr 0#32 x := by
  rw [← effAddr_ofs] at hx
  have hal : ¬ aligned (effAddr m (s.readGr b) disp).ofs .word = true := fun h => ha (hx ▸ (aligned_iff _ .word).mp h)
  simp only [storeAbsolute, if_neg hal, hx]

/-- Settles O34: `loadAbsolute` at the privileged level. -/
theorem ldwaResult : Obligations.LdwaResult := by
  intro r a b m d s i disp x hx hi hofs
  have hexec : exec i s = conclude s (loadAbsolute (encode i) r m b disp s) := by
    rcases hi with ⟨rfl, rfl⟩ | ⟨rfl, rfl⟩
    · exact congrArg (conclude s) (privileged_priv hx _ _)
    · exact congrArg (conclude s) (privileged_priv hx _ _)
  rw [hexec]
  refine ⟨fun ha hr => ?_, fun ha => ?_⟩
  · rw [loadAbsolute_ok _ hofs ha (physRead_ok .word hr), conclude_ok]
    exact ⟨_, _, rfl, bytesAre_read s.mem x.toNat .word, loaded_spec s m b disp r _⟩
  · rw [loadAbsolute_misaligned _ hofs ha]
    exact tookTrap_conclude rfl

/-- The four bytes of a word store are its value. -/
theorem bytesAre_write_word (m : Memory) (a : Nat) (v : Word) : BytesAre (m.write a v .word) a .word v := by
  rw [bytesAre_iff, Memory.read_write_word]

/-- Settles O35: `storeAbsolute` at the privileged level. -/
theorem stwaResult : Obligations.StwaResult := by
  intro r b m d s x hx hofs
  have hexec : exec (.stwa r m d b) s =
      conclude s (storeAbsolute (encode (.stwa r m d b)) r m b (lse d) s) :=
    congrArg (conclude s) (privileged_priv hx _ _)
  rw [hexec]
  refine ⟨fun ha hw => ?_, fun ha => ?_⟩
  · obtain ⟨hmem, hspec⟩ := stored_spec s x .word (s.readGr r) m b (lse d)
    refine ⟨_, by rw [storeAbsolute_ok _ hofs ha hw, conclude_ok], ?_, hspec⟩
    rw [hmem]
    exact bytesAre_write_word s.mem x.toNat (s.readGr r)
  · rw [storeAbsolute_misaligned _ hofs ha]
    exact tookTrap_conclude rfl

/-! The reservation. -/

/-- Settles O36: `loadReserved`. -/
theorem ldwrResult : Obligations.LdwrResult := by
  intro r a b d s i x p hi hreach hr
  have hexec : exec i s = conclude s (loadReserved (encode i) r x s) := by
    rcases hi with ⟨rfl, rfl⟩ | ⟨rfl, rfl⟩ <;> rfl
  have hload : loadReserved (encode i) r x s =
      .ok ({ s with lrValid := true, lrAddr := p }.result r (s.mem.read p.toNat .word)) := by
    simp only [loadReserved, dataAddr_ok (encode i) hreach, physRead_ok .word hr]
  rw [hexec, hload, conclude_ok]
  refine ⟨_, _, rfl, bytesAre_read s.mem p.toNat .word, ?_, rfl, rfl, rfl,
    ((frame_refl _ s).reservationChanged rfl true p).result (by simp) _⟩
  rw [State.readGr_result, if_pos rfl]

/-- By default STWC succeeds where the reservation is of its word. -/
theorem reservationHolds_iff (s : State) (p : Word) :
    s.reservationHolds p = true ↔ s.lrValid = true ∧ s.lrAddr = p := by
  simp [State.reservationHolds, State.dropsReservation, Config.reservationMayDrop]

/-- Settles O37: the two branches of `storeConditional`. -/
theorem stwcResult : Obligations.StwcResult := by
  intro r b d s x p hx hreach
  subst hx
  have hexec : exec (.stwc r d b) s =
      conclude s (storeConditional (encode (.stwc r d b)) r (s.readGr b + lse d) s) := rfl
  rw [hexec]
  refine ⟨fun hv ha hw => ?_, fun hlost => ?_⟩
  · have hstore : storeConditional (encode (.stwc r d b)) r (s.readGr b + lse d) s =
        .ok ((s.storeBytes p .word (s.readGr r)).endReservation.result r 0#32) := by
      simp only [storeConditional, dataAddr_ok _ hreach, (reservationHolds_iff s p).mpr ⟨hv, ha⟩, if_true,
        physWrite_ok .word _ hw]
    rw [hstore, conclude_ok]
    refine ⟨_, rfl, ?_, bytesAre_write_word s.mem p.toNat _, rfl, rfl,
      (((frame_refl _ s).storeBytes rfl rfl _).endReservation rfl).result (by simp) _⟩
    rw [State.readGr_result, if_pos rfl, ite_self]
  · have hstore : storeConditional (encode (.stwc r d b)) r (s.readGr b + lse d) s =
        .ok (s.endReservation.result r 1#32) := by
      simp only [storeConditional, dataAddr_ok _ hreach, if_neg (mt (reservationHolds_iff s p).mp hlost)]
    rw [hstore, conclude_ok]
    refine ⟨_, rfl, ?_, rfl, rfl, ((frame_refl _ s).endReservation rfl).result (by simp) _⟩
    rw [State.readGr_result, if_pos rfl]

end Sys2Proof.Machine

/-! PROOFS. Where an access does not complete: the traps of a data access in their order, the extended instructions with
data translation off, and the places with nothing behind them (60_exceptions.md R282, R288, R301, 20_memory.md R57). -/

namespace Sys2Proof.Machine

/-! The traps of a data access. -/

/-- The checks of an entry, each where those before it pass. -/
theorem checkEntry_rights {s : State} {kind : Access} {e : TlbEntry} {instr seg ofs : Word}
    (hr : accessAllowed kind e.ar s.level = false) :
    s.checkEntry kind e instr seg ofs = raiseData .dataAccessRights instr seg ofs := by
  unfold State.checkEntry
  rw [if_pos hr]

theorem checkEntry_pid {s : State} {kind : Access} {e : TlbEntry} {instr seg ofs : Word}
    (hr : accessAllowed kind e.ar s.level = true) (hp : s.pBit = true ∧ s.pidAllowed kind e.pid = false) :
    s.checkEntry kind e instr seg ofs = raiseData .dataProtection instr seg ofs := by
  unfold State.checkEntry
  rw [if_neg (by simp [hr]), if_pos hp]

theorem checkEntry_page {s : State} {kind : Access} {e : TlbEntry} {instr seg ofs : Word}
    (hr : accessAllowed kind e.ar s.level = true) (hp : ¬ (s.pBit = true ∧ s.pidAllowed kind e.pid = false))
    (h : e.t = true ∨ (kind = .write ∧ e.d = true) ∨ e.b = true) :
    s.checkEntry kind e instr seg ofs = raiseData .pageReference instr seg ofs := by
  unfold State.checkEntry
  rw [if_neg (by simp [hr]), if_neg hp]
  by_cases ht : e.t = true
  · rw [if_pos ht]
  · rw [if_neg ht]
    by_cases hd : kind = .write ∧ e.d = true
    · rw [if_pos hd]
      rfl
    · rw [if_neg hd, if_pos ((h.resolve_left ht).resolve_left hd)]
      rfl

/-- An instruction that stops where the address of its data access does takes the traps of that access. -/
theorem takesDataTraps_of_dataAddr {s : State} {i : Instr} {kind : Access} {w : Width} {seg x : Word}
    (h : ∀ e, s.dataAddr kind (encode i) seg x w = .error e → exec i s = conclude s (.error e)) :
    TakesDataTraps s i kind w seg x := by
  have htrap : ∀ id sid, s.dataAddr kind (encode i) seg x w = raiseData id (encode i) sid x →
      ∃ t, exec i s = .next t ∧ TookTrap id (some (encode i)) (some sid) (some x) s t := by
    intro id sid hraise
    rw [h _ hraise]
    exact tookTrap_conclude rfl
  refine ⟨fun hx => htrap _ _ (dataAddr_misaligned kind _ _ hx), fun hx hd hs => ⟨fun hl => ?_, fun e hl => ?_⟩⟩
  · exact htrap _ _ ((dataAddr_translated kind _ hx hd hs).trans (by rw [hl]))
  · have hentry : s.dataAddr kind (encode i) seg x w = s.checkEntry kind e (encode i) seg x :=
      (dataAddr_translated kind _ hx hd hs).trans (by rw [hl])
    exact ⟨fun hr => htrap _ _ (hentry.trans (checkEntry_rights hr)),
      fun hr => ⟨fun hp => htrap _ _ (hentry.trans (checkEntry_pid hr hp)),
        fun hp hpage => htrap _ _ (hentry.trans (checkEntry_page hr hp hpage))⟩⟩

theorem memRead_error {s : State} {instr seg ofs : Word} {w : Width} {e : Stop}
    (h : s.dataAddr .read instr seg ofs w = .error e) : s.memRead instr seg ofs w = .error e := by
  simp only [State.memRead, h]

theorem memWrite_error {s : State} {instr seg ofs : Word} {w : Width} {e : Stop} (v : Word)
    (h : s.dataAddr .write instr seg ofs w = .error e) : s.memWrite instr seg ofs w v = .error e := by
  simp only [State.memWrite, h]

theorem memRead_stops {s : State} {instr seg ofs p : Word} {w : Width} {e : Stop} (h : Reaches s .read seg ofs w p)
    (he : s.physRead p w = .error e) : s.memRead instr seg ofs w = .error e := by
  simp only [State.memRead, dataAddr_ok instr h, he]

theorem memWrite_stops {s : State} {instr seg ofs p v : Word} {w : Width} {e : Stop} (h : Reaches s .write seg ofs w p)
    (he : s.physWrite p w v = .error e) : s.memWrite instr seg ofs w v = .error e := by
  simp only [State.memWrite, dataAddr_ok instr h, he]

/-- A load or LDWR whose read stops, stops as the read does. -/
theorem exec_read_error {s : State} {i : Instr} {w : Width} {seg x : Word} {e : Stop}
    (hi : DataAccess s i .read w seg x) (he : s.memRead (encode i) seg x w = .error e) :
    exec i s = conclude s (.error e) := by
  have hreserved : ∀ r y, s.memRead (encode i) (s.logicalSeg y) y .word = .error e →
      loadReserved (encode i) r y s = .error e := by
    intro r y hy
    unfold State.memRead at hy
    unfold loadReserved
    cases haddr : s.dataAddr .read (encode i) (s.logicalSeg y) y .word with
    | error e' =>
      rw [haddr] at hy
      cases hy
      rfl
    | ok p =>
      rw [haddr] at hy
      dsimp only at hy
      simp only [hy]
  cases hi with
  | load _ r m b f _ hf hx => rw [exec_loadInstr hf, load_error hx he]
  | ldwrIdx r a b _ hx | ldwrOfs r d b _ hx =>
    subst hx
    exact congrArg (conclude s) (hreserved r _ he)

/-- A store or STWC whose address stops, stops as the address does. -/
theorem exec_write_error {s : State} {i : Instr} {w : Width} {seg x : Word} {e : Stop}
    (hi : DataAccess s i .write w seg x) (he : s.dataAddr .write (encode i) seg x w = .error e) :
    exec i s = conclude s (.error e) := by
  cases hi with
  | store _ r m b d sg _ hseg hx => rw [exec_storeInstr hseg, store_error hx (memWrite_error _ he)]
  | stwc r d b _ hx =>
    subst hx
    refine congrArg (conclude s) ?_
    replace he : s.dataAddr .write (s.instrWord (.stwc r d b)) (s.logicalSeg (s.readGr b + lse d)) (s.readGr b + lse d)
      .word = .error e := he
    simp only [storeConditional, he]

/-- Settles O31: the data address of a read and of a write. -/
theorem dataTraps : Obligations.DataTraps := by
  intro s i kind w seg x hi
  refine takesDataTraps_of_dataAddr (fun e he => ?_)
  cases kind with
  | read => exact exec_read_error hi (memRead_error he)
  | write => exact exec_write_error hi he

theorem operand_idx_error {s : State} {instr : Word} {r : GReg} {dw : BitVec 2} {a b : GReg} {e : Stop}
    (h : s.memOperand instr dw (s.readGr b + s.readGr a) = .error e) :
    s.operand instr r (.idx dw a b) = .error e := by
  simp only [State.operand, h]

theorem operand_ofs_error {s : State} {instr : Word} {r : GReg} {dw : BitVec 2} {d : BitVec 12} {b : GReg} {e : Stop}
    (h : s.memOperand instr dw (s.readGr b + lse d) = .error e) :
    s.operand instr r (.ofs dw d b) = .error e := by
  simp only [State.operand, h]

/-- A computational instruction stops where its operand does. -/
theorem exec_arith_error {op : ArithOp} {r : GReg} {o l : Bool} {x : Operand} {s : State} {e : Stop}
    (h : s.operand (encode (arithInstr op r o l x)) r x = .error e) :
    exec (arithInstr op r o l x) s = conclude s (.error e) := by
  rw [exec_arithInstr]
  simp only [arith, h]

theorem exec_logic_error {op : LogicOp} {r : GReg} {n c : Bool} {x : Operand} {s : State} {e : Stop}
    (h : s.operand (encode (logicInstr op r n c x)) r x = .error e) :
    exec (logicInstr op r n c x) s = conclude s (.error e) := by
  rw [exec_logicInstr]
  simp only [logical, h]

theorem exec_compare_error {signed : Bool} {r : GReg} {cond : BitVec 2} {x : Operand} {s : State} {e : Stop}
    (h : s.operand (encode (compareInstr signed r cond x)) r x = .error e) :
    exec (compareInstr signed r cond x) s = conclude s (.error e) := by
  rw [exec_compareInstr]
  simp only [compareOp, h]

theorem exec_memOperand_error {i : Instr} {dw : BitVec 2} {adr : State → Word} {s : State} {e : Stop}
    (hi : MemOperandInstr i dw adr) (he : s.memOperand (encode i) dw (adr s) = .error e) :
    exec i s = conclude s (.error e) := by
  cases hi with
  | arithIdx => exact exec_arith_error (operand_idx_error he)
  | arithOfs => exact exec_arith_error (operand_ofs_error he)
  | logicIdx => exact exec_logic_error (operand_idx_error he)
  | logicOfs => exact exec_logic_error (operand_ofs_error he)
  | compareIdx => exact exec_compare_error (operand_idx_error he)
  | compareOfs => exact exec_compare_error (operand_ofs_error he)

theorem memOperand_eq_memRead {s : State} {instr x : Word} {dw : BitVec 2} {w : Width} (h : widthOf dw = some w) :
    s.memOperand instr dw x = s.memRead instr (s.logicalSeg x) x w := by
  simp only [State.memOperand, h]

/-- Settles O23: the width first, then the data address of the read. -/
theorem operandTraps : Obligations.OperandTraps := by
  intro i dw adr s hi
  refine ⟨fun hdw => ?_, fun w hw => takesDataTraps_of_dataAddr (fun e he => ?_)⟩
  · subst hdw
    rw [exec_memOperand_error hi (show s.memOperand (encode i) 3#2 (adr s) = raiseInstr .illegalInstruction _ from rfl)]
    exact tookTrap_conclude rfl
  · exact exec_memOperand_error hi ((memOperand_eq_memRead hw).trans (memRead_error he))

/-! Extended instructions with data translation off. -/

/-- The instructions of the opcodes 0x30 and 0x31. -/
inductive ExtendedInstr : Instr → Prop where
  | loadOfs (w : Width) (r : GReg) (m : Bool) (b : GReg) (seg : BitVec 2) (d : BitVec 12) :
      ExtendedInstr (loadInstr w r m b (.extendedOfs seg d))
  | loadIdx (w : Width) (r : GReg) (m : Bool) (b : GReg) (seg : BitVec 2) (a : GReg) :
      ExtendedInstr (loadInstr w r m b (.extendedIdx seg a))
  | store (w : Width) (r : GReg) (m : Bool) (b : GReg) (d : BitVec 12) (seg : BitVec 2) :
      ExtendedInstr (storeInstr w r m b d (some seg))

theorem exec_extended_off {i : Instr} {s : State} (hi : ExtendedInstr i) (hd : s.dBit = false) :
    ∃ t, exec i s = .next t ∧ TookTrap .illegalInstruction (some (encode i)) none none s t := by
  cases hi with
  | loadOfs w | loadIdx w | store w => cases w <;> exact tookTrap_conclude (extended_off hd _ _)

theorem decodeLde_ok {w : Word} {i : Instr} (h : decodeLde w = .ok i) : ExtendedInstr i := by
  unfold decodeLde at h
  dsimp only at h
  split at h
  · rcases decodeWidth_ok h with ⟨-, h⟩ | ⟨-, h⟩ | ⟨-, h⟩
    · cases (ifZeroElse_ok h).2
      exact .loadIdx .byte ..
    · cases (ifZeroElse_ok h).2
      exact .loadIdx .half ..
    · cases (ifZeroElse_ok h).2
      exact .loadIdx .word ..
  · rcases decodeWidth_ok h with ⟨-, h⟩ | ⟨-, h⟩ | ⟨-, h⟩
    · cases h
      exact .loadOfs .byte ..
    · cases h
      exact .loadOfs .half ..
    · cases h
      exact .loadOfs .word ..

theorem decodeSte_ok {w : Word} {i : Instr} (h : decodeSte w = .ok i) : ExtendedInstr i := by
  unfold decodeSte at h
  dsimp only at h
  split at h
  · cases h
  · rcases decodeWidth_ok h with ⟨-, h⟩ | ⟨-, h⟩ | ⟨-, h⟩
    · cases h
      exact .store .byte ..
    · cases h
      exact .store .half ..
    · cases h
      exact .store .word ..

theorem decodeWidth_error {w : Word} {b h wd : Except Reject Instr} {e : Reject}
    (he : decodeWidth w b h wd = .error e) :
    e = .undefinedForm ∨ b = .error e ∨ h = .error e ∨ wd = .error e := by
  unfold decodeWidth at he
  split at he
  · exact .inr (.inl he)
  · exact .inr (.inr (.inl he))
  · exact .inr (.inr (.inr he))
  · cases he
    exact .inl rfl

theorem ifZeroElse_error {why e : Reject} {w : Word} {k n : Nat} {i : Instr}
    (h : ifZeroElse why w k n (.ok i) = .error e) : e = why := by
  rw [ifZeroElse_eq] at h
  split at h
  · cases h
  · cases h
    rfl

theorem decodeLde_error {w : Word} {e : Reject} (h : decodeLde w = .error e) :
    e = .undefinedForm ∨ e = .reservedExtended := by
  unfold decodeLde at h
  dsimp only at h
  split at h
  · rcases decodeWidth_error h with h | h | h | h
    · exact .inl h
    all_goals exact .inr (ifZeroElse_error h)
  · rcases decodeWidth_error h with h | h | h | h
    · exact .inl h
    all_goals cases h

theorem decodeSte_error {w : Word} {e : Reject} (h : decodeSte w = .error e) : e = .undefinedForm := by
  unfold decodeSte at h
  dsimp only at h
  split at h
  · cases h
    rfl
  · rcases decodeWidth_error h with h | h | h | h
    · exact h
    all_goals cases h

/-- Settles O32: the instructions, and what the two opcodes decode to or are rejected for. -/
theorem extendedNeedsTranslation : Obligations.ExtendedNeedsTranslation := by
  constructor
  · intro w r m b seg d a s i hd hi
    refine exec_extended_off ?_ hd
    rcases hi with rfl | rfl | rfl
    · exact .loadOfs ..
    · exact .loadIdx ..
    · exact .store ..
  · intro s t w hf hd hop
    rw [List.mem_pair] at hop
    have hdecode : (∃ i, decodeWord w = .ok i ∧ ExtendedInstr i) ∨ decodeWord w = .error .undefinedForm ∨
        decodeWord w = .error .reservedExtended := by
      rcases hop with hop | hop
      · rw [decodeWord_lde hop]
        cases h : decodeLde w with
        | ok i => exact .inl ⟨i, rfl, decodeLde_ok h⟩
        | error e =>
          rcases decodeLde_error h with rfl | rfl
          · exact .inr (.inl rfl)
          · exact .inr (.inr rfl)
      · rw [decodeWord_ste hop]
        cases h : decodeSte w with
        | ok i => exact .inl ⟨i, rfl, decodeSte_ok h⟩
        | error e =>
          obtain rfl := decodeSte_error h
          exact .inr (.inl rfl)
    rcases hdecode with ⟨i, hi, hext⟩ | he | he
    · obtain ⟨-, hword⟩ := encodeDecode w i hi
      rw [step_ok hf hi, ← hword]
      exact exec_extended_off hext hd
    · exact step_illegal hf (.inr he)
    · rw [step_rejected hf he]
      unfold rejected
      rw [hd]
      exact tookTrap_conclude rfl

/-! Places with nothing behind them. -/

/-- What is behind an address depends on where PDC code is placed alone. -/
theorem stopsAt_congr {s t : State} {kind : Access} {p : Word} {o : Host.Outcome State Fault Refusal}
    (h : t.pdcWords = s.pdcWords) (hs : StopsAt s kind p o) : StopsAt t kind p o := by
  cases hs with
  | pdcRead hk h1 h2 hw => exact .pdcRead hk h1 h2 (h ▸ hw)
  | pdcWrite hk h1 h2 => exact .pdcWrite hk h1 h2
  | unassigned h1 h2 => exact .unassigned h1 h2
  | io h1 => exact .io h1

/-- A load, store, LDWR or STWC with its reservation, at a place with nothing behind it. -/
theorem exec_dataAccess_stops {s : State} {i : Instr} {kind : Access} {w : Width} {seg x p : Word}
    {o : Host.Outcome State Fault Refusal} (hi : DataAccess s i kind w seg x)
    (hres : (∃ r d b, i = .stwc r d b) → s.lrValid = true ∧ s.lrAddr = p) (hreach : Reaches s kind seg x w p)
    (ho : StopsAt s kind p o) : exec i s = o := by
  cases kind with
  | read =>
    obtain ⟨e, he, rfl⟩ := physRead_stops w s ho
    exact exec_read_error hi (memRead_stops hreach he)
  | write =>
    cases hi with
    | store _ r m b d sg _ hseg hx =>
      obtain ⟨e, he, rfl⟩ := physWrite_stops w (s.readGr r) s ho
      rw [exec_storeInstr hseg, store_error hx (memWrite_stops hreach he)]
    | stwc r d b _ hx =>
      subst hx
      obtain ⟨e, he, rfl⟩ := physWrite_stops .word (s.readGr r) s ho
      refine congrArg (conclude s) ?_
      simp only [storeConditional, dataAddr_ok _ hreach, (reservationHolds_iff s p).mpr (hres ⟨r, d, b, rfl⟩), if_true,
        he]

theorem exec_absolute_stops {s : State} {i : Instr} {kind : Access} {x : Word} {o : Host.Outcome State Fault Refusal}
    (hi : AbsoluteAccess s i kind x) (hx : s.xBit = false) (ha : x.toNat % 4 = 0) (ho : StopsAt s kind x o) :
    exec i s = o := by
  cases hi with
  | ldwa | ldwax =>
    obtain ⟨e, he, rfl⟩ := physRead_stops .word s ho
    exact congrArg (conclude s) ((privileged_priv hx _ _).trans (loadAbsolute_error _ rfl ha he))
  | stwa r =>
    obtain ⟨e, he, rfl⟩ := physWrite_stops .word (s.readGr r) s ho
    exact congrArg (conclude s) ((privileged_priv hx _ _).trans (storeAbsolute_error _ rfl ha he))

/-- A fetch that passes every check. -/
theorem fetchAddr_of_fetchReaches {s : State} {p : Word} (h : FetchReaches s p) :
    ∃ t, s.fetchAddr = .ok (p, t) ∧ t.pdcWords = s.pdcWords := by
  rcases h with ⟨h, rfl⟩ | ⟨hc, hs, e, hl, ht, hlevel, hpid, rfl⟩
  · exact ⟨s, fetchAddr_untranslated h, rfl⟩
  · exact ⟨s.demoted e, (fetchAddr_entry hc hs hl).trans (fetchEntry_ok ht hlevel hpid), demoted_pdcWords s e⟩

theorem step_fetch_stops {s : State} {p : Word} {o : Host.Outcome State Fault Refusal}
    (hi : s.interruptTaken = false) (hreach : FetchReaches s p) (ho : StopsAt s .read p o) : step s = o := by
  obtain ⟨t, haddr, hpdc⟩ := fetchAddr_of_fetchReaches hreach
  obtain ⟨e, he, rfl⟩ := physRead_stops .word s (stopsAt_congr hpdc ho)
  refine step_error hi ?_
  unfold State.fetch
  rw [haddr]
  dsimp only
  rw [he]

/-- Settles O33: data accesses and memory operands, absolute accesses, and the fetch. -/
theorem platformStops : Obligations.PlatformStops := by
  refine ⟨fun s i kind w seg x p o hi hres hreach ho => ?_, fun s i kind x o hi hx ha ho => ?_,
    fun s p o hi hreach ho => ?_⟩
  · rcases hi with hi | ⟨dw, adr, hi, hw, rfl, rfl, rfl⟩
    · exact exec_dataAccess_stops hi hres hreach ho
    · obtain ⟨e, he, rfl⟩ := physRead_stops w s ho
      exact exec_memOperand_error hi ((memOperand_eq_memRead hw).trans (memRead_stops hreach he))
  · exact exec_absolute_stops hi hx ha ho
  · exact step_fetch_stops hi hreach ho

end Sys2Proof.Machine
